-- ==== Sys2Proof/Word.lean ====
section
/-! DEFINITION. Word types, the named values of the manual that commands carry (chapter "Names and quantities"
of 00_scope.md), their numeric codes (R193), and the plainest arithmetic. -/

namespace Sys2Proof

/-- A byte: one character of a link (R189). -/
abbrev Byte := BitVec 8

/-- Pick serials, change ids, design passes and weft phases: 0 to 65535, wrapping (R55, R146). -/
abbrev Half := BitVec 16

/-- Replaces the entry of number `i` of a table of fixed size. -/
def upd {α : Type} {n : Nat} (v : Vector α n) (i : Fin n) (x : α) : Vector α n := v.set i.1 x i.2

/-- The number `k` as a member number of a table of `n` members, when it lies in the table. -/
def member (n k : Nat) : Option (Fin n) := if h : k < n then some ⟨k, h⟩ else none

/-! ### Links, frames and notices -/

/-- The three links (chapter 10); codes 0 P, 1 D, 2 W (R193). -/
inductive LinkId | p | d | w
  deriving DecidableEq, Repr

/-- A character as the receiver takes it: its value, and whether it came with a character error (R175). -/
structure LineChar where
  byte : Byte
  err : Bool
  deriving DecidableEq, Repr

/-- The notice kinds of section 10.5, in the order of their codes 0 to 15 (R193). -/
inductive NoticeKind
  | guardEntered | guardLeft | halted | readyChanged | presentDone | changeApplied | changeRestored
  | changeDropped | markHit | feederSuspended | feederStateChanged | echoMismatch | unsanctionedMotion
  | triggerIgnored | windowInterrupted | planChanged
  deriving DecidableEq, Repr

/-- Every notice kind, by rising code (R193). -/
def NoticeKind.all : List NoticeKind :=
  [.guardEntered, .guardLeft, .halted, .readyChanged, .presentDone, .changeApplied, .changeRestored,
   .changeDropped, .markHit, .feederSuspended, .feederStateChanged, .echoMismatch, .unsanctionedMotion,
   .triggerIgnored, .windowInterrupted, .planChanged]

/-- The triggers of section 9.1, in the order of their codes 0 to 12 (R193). -/
inductive Trigger
  | weftMissing | weftFail | feederUnavailable | latePick | lateTransfer | echoBudget | moduleFault
  | unsanctionedMotion | driveStall | angleFault | warpStop | markStop | historyEnd
  deriving DecidableEq, Repr

/-- Every trigger, by rising code (R193). -/
def Trigger.all : List Trigger :=
  [.weftMissing, .weftFail, .feederUnavailable, .latePick, .lateTransfer, .echoBudget, .moduleFault,
   .unsanctionedMotion, .driveStall, .angleFault, .warpStop, .markStop, .historyEnd]

/-- A trigger's row in the trigger table, which is its code (R193). -/
def Trigger.idx : Trigger → Fin 13
  | .weftMissing => 0 | .weftFail => 1 | .feederUnavailable => 2 | .latePick => 3 | .lateTransfer => 4
  | .echoBudget => 5 | .moduleFault => 6 | .unsanctionedMotion => 7 | .driveStall => 8 | .angleFault => 9
  | .warpStop => 10 | .markStop => 11 | .historyEnd => 12

/-- The column "May be disabled" of the table of section 9.1 (R160). -/
def Trigger.mayDisable : Trigger → Bool
  | .feederUnavailable | .latePick | .lateTransfer | .unsanctionedMotion | .angleFault | .historyEnd => false
  | .weftMissing | .weftFail | .echoBudget | .moduleFault | .driveStall | .warpStop | .markStop => true

/-- The column "Counts by default" of the table of section 9.1 (R160). -/
def Trigger.countsDefault : Trigger → Bool
  | .feederUnavailable | .warpStop | .markStop | .historyEnd => false
  | .weftMissing | .weftFail | .latePick | .lateTransfer | .echoBudget | .moduleFault
  | .unsanctionedMotion | .driveStall | .angleFault => true

/-- The status codes of section 10.2. -/
inductive Status
  | ok | busy | wrongState | wrongAngle | noFeeder | causeActive | badArgument | held | noSpace
  | checkFailed | stale | unknownRequest | frameError
  deriving DecidableEq, Repr

/-- The value of a status code in a response frame (table of section 11.1). -/
def Status.code : Status → Byte
  | .ok => 0 | .busy => 1 | .wrongState => 2 | .wrongAngle => 3 | .noFeeder => 4 | .causeActive => 5
  | .badArgument => 6 | .held => 7 | .noSpace => 8 | .checkFailed => 9 | .stale => 10
  | .unknownRequest => 11 | .frameError => 12

/-- The requests of section 10.3. -/
inductive Request
  | identify | readNotices | setNoticeMask | readStatus | readiness | motion | setSchedule | readSchedule
  | defineDesign | writeFigure | writeCards | readFigure | readCards | commitDesign | reopenDesign
  | eraseDesign | readStore | defineWeave | readWeave | setSection | setDeadList | addDeadHook
  | removeDeadHook | readHarness | setFeeder | restoreFeeder | setGroup | readWeft | weftPlan | weftReport
  | feederState | census | hookTest | readModules | setEchoBudget | selectDesign | readHistory
  | resetSequencer | queueChange | cancelChanges | readChanges | setMark | setGuard | readGuard
  | clearHalt | clearGuardCount
  deriving DecidableEq, Repr

/-- Every request, by rising code (R193). -/
def Request.all : List Request :=
  [.identify, .readNotices, .setNoticeMask, .readStatus, .readiness, .motion, .setSchedule, .readSchedule,
   .defineDesign, .writeFigure, .writeCards, .readFigure, .readCards, .commitDesign, .reopenDesign,
   .eraseDesign, .readStore, .defineWeave, .readWeave, .setSection, .setDeadList, .addDeadHook,
   .removeDeadHook, .readHarness, .setFeeder, .restoreFeeder, .setGroup, .readWeft, .weftPlan, .weftReport,
   .feederState, .census, .hookTest, .readModules, .setEchoBudget, .selectDesign, .readHistory,
   .resetSequencer, .queueChange, .cancelChanges, .readChanges, .setMark, .setGuard, .readGuard,
   .clearHalt, .clearGuardCount]

/-- The request codes of R193. -/
def Request.code : Request → Byte
  | .identify => 0x01 | .readNotices => 0x02 | .setNoticeMask => 0x03 | .readStatus => 0x04
  | .readiness => 0x05 | .motion => 0x06 | .setSchedule => 0x10 | .readSchedule => 0x11
  | .defineDesign => 0x20 | .writeFigure => 0x21 | .writeCards => 0x22 | .readFigure => 0x23
  | .readCards => 0x24 | .commitDesign => 0x25 | .reopenDesign => 0x26 | .eraseDesign => 0x27
  | .readStore => 0x28 | .defineWeave => 0x30 | .readWeave => 0x31 | .setSection => 0x32
  | .setDeadList => 0x33 | .addDeadHook => 0x34 | .removeDeadHook => 0x35 | .readHarness => 0x36
  | .setFeeder => 0x40 | .restoreFeeder => 0x41 | .setGroup => 0x42 | .readWeft => 0x43
  | .weftPlan => 0x44 | .weftReport => 0x45 | .feederState => 0x46 | .census => 0x50 | .hookTest => 0x51
  | .readModules => 0x52 | .setEchoBudget => 0x53 | .selectDesign => 0x60 | .readHistory => 0x61
  | .resetSequencer => 0x62 | .queueChange => 0x70 | .cancelChanges => 0x71 | .readChanges => 0x72
  | .setMark => 0x73 | .setGuard => 0x80 | .readGuard => 0x81 | .clearHalt => 0x82
  | .clearGuardCount => 0x83

/-- Which links carry a request: the tables of section 10.3 and R193. -/
def Request.onLink : Request → LinkId → Bool
  | .identify, _ | .readNotices, _ | .setNoticeMask, _ => true
  | .readiness, l | .motion, l => l = .d
  | .readWeft, l => l ≠ .d
  | .weftPlan, l | .weftReport, l | .feederState, l => l = .w
  | .readStatus, l | .setSchedule, l | .readSchedule, l | .defineDesign, l | .writeFigure, l | .writeCards, l
  | .readFigure, l | .readCards, l | .commitDesign, l | .reopenDesign, l | .eraseDesign, l | .readStore, l
  | .defineWeave, l | .readWeave, l | .setSection, l | .setDeadList, l | .addDeadHook, l
  | .removeDeadHook, l | .readHarness, l | .setFeeder, l | .restoreFeeder, l | .setGroup, l | .census, l
  | .hookTest, l | .readModules, l | .setEchoBudget, l | .selectDesign, l | .readHistory, l
  | .resetSequencer, l | .queueChange, l | .cancelChanges, l | .readChanges, l | .setMark, l
  | .setGuard, l | .readGuard, l | .clearHalt, l | .clearGuardCount, l => l = .p

/-! ### The shaft -/

/-- Direction of a step of the shaft (R1). -/
inductive Dir | forward | reverse
  deriving DecidableEq, Repr

/-- The five schedule angles (section 1.2). -/
inductive SchedAngle | latch | opening | closing | prep | xfer
  deriving DecidableEq, Repr

/-- The five schedule angles in schedule order (R8). -/
def SchedAngle.all : List SchedAngle := [.latch, .opening, .closing, .prep, .xfer]

/-- The settings of SET-SCHEDULE: five angles in angle units, and the settle and stall times as counts of
10 ms steps (R14). -/
structure Schedule where
  latch : Nat
  opening : Nat
  closing : Nat
  prep : Nat
  xfer : Nat
  settle : Nat
  stall : Nat
  deriving DecidableEq, Repr

/-- The angle of a schedule event. -/
def Schedule.angle (c : Schedule) : SchedAngle → Nat
  | .latch => c.latch | .opening => c.opening | .closing => c.closing | .prep => c.prep | .xfer => c.xfer

/-- R7: the schedule is legal when 0 < A_latch < A_open < A_close ≤ A_prep < A_xfer ≤ 719; and each time lies in
its range (R14). -/
abbrev Schedule.legal (c : Schedule) : Prop :=
  0 < c.latch ∧ c.latch < c.opening ∧ c.opening < c.closing ∧ c.closing ≤ c.prep ∧ c.prep < c.xfer ∧
    c.xfer ≤ 719 ∧ 1 ≤ c.settle ∧ c.settle ≤ 255 ∧ 1 ≤ c.stall ∧ c.stall ≤ 255

/-! ### Designs, weaves and the harness -/

/-- The weft field of a card record (R18). -/
inductive Weft
  | feeder (f : Fin 8)
  | colour (g : Fin 8)
  deriving DecidableEq, Repr

/-- A card record (R18). -/
structure CardRecord where
  weft : Weft
  mark : BitVec 8
  pickRepeat : Nat
  void : Bool
  deriving DecidableEq, Repr

/-- The card record every card starts with at DEFINE-DESIGN (R18). -/
def CardRecord.initial : CardRecord := ⟨.colour 0, 0, 1, false⟩

/-- The tie of a FIGURE section (R42). -/
inductive Tie | straight | point
  deriving DecidableEq, Repr

/-- The direction of a tie (R42). -/
inductive TieDir | ascending | descending
  deriving DecidableEq, Repr

/-- A harness section record: the fields of R42 that its role has. -/
inductive SectionRecord
  | figure (first last : Nat) (tie : Tie) (dir : TieDir) (start span shift : Nat)
  | fixed (first last weave shift : Nat)
  | down (first last : Nat)
  deriving DecidableEq, Repr

/-! ### Weft, changes, guard and chain operands -/

/-- The service choice of SET-FEEDER (R77). -/
inductive Service | into | out | keep
  deriving DecidableEq, Repr

/-- The report of FEEDER-STATE (R78). -/
inductive FeederReport | out | back
  deriving DecidableEq, Repr

/-- The planning mode of a colour group (R80). -/
inductive GroupMode | single | alternate
  deriving DecidableEq, Repr

/-- The outcome of an insertion (R91). -/
inductive Insertion | inserted | yarnBreak | transferFail
  deriving DecidableEq, Repr

/-- R91: YARN-BREAK and TRANSFER-FAIL are the failure outcomes. -/
def Insertion.failure : Insertion → Bool
  | .inserted => false | .yarnBreak => true | .transferFail => true

/-- The condition of a queued change with its argument (R145). -/
inductive Condition
  | nextPick
  | atRepeatEnd
  | atMark (k : Nat)
  | atCount (n : Nat)
  deriving DecidableEq, Repr

/-- The mode of a mark comparator (R150). -/
inductive CompMode | off | matching | any
  deriving DecidableEq, Repr

/-- The guard shed (R165). -/
inductive Shed | hold | close
  deriving DecidableEq, Repr

/-- A complete guard setting (R172). -/
structure GuardSetting where
  enabled : Vector Bool 13
  counts : Vector Bool 13
  shed : Shed
  limit : Nat
  autoClear : Half
  filterTime : Nat
  deriving DecidableEq, Repr

/-- A status as a module echoes it: one of the four of R106, or a code that is none of these. -/
inductive EchoStatus | good | driverFault | supplyLow | overheat | other
  deriving DecidableEq, Repr

/-- What one module echoes in a shifting pass: its latched lifts, hook place 0 first, and its status (R97). -/
structure ModuleEcho where
  lifts : List Bool
  status : EchoStatus
  deriving DecidableEq, Repr

/-- How one test pattern of a hook test stage comes back (R112). -/
inductive PatternReturn | intact | changed | lost
  deriving DecidableEq, Repr

/-- One stage of a hook test: the return of each of the four test patterns of R112. -/
structure StageReturn where
  lowered : PatternReturn
  raised : PatternReturn
  alternating : PatternReturn
  otherWay : PatternReturn
  deriving DecidableEq, Repr

/-! ### Arithmetic -/

/-- `n` raised by one, stopping at `top` ("A counter said to saturate stops at the end of its range"). -/
def raiseTo (top n : Nat) : Nat := if n < top then n + 1 else n

/-- The quotient of `a` by `b`, rounded up (R20, R191). -/
def ceilDiv (a b : Nat) : Nat := (a + b - 1) / b

end Sys2Proof
end

