-- ==== Sys2Proof/Config.lean ====
section
/-! DEFINITION. What an implementation fixes and the free values of the model. A free value has no body: nothing in
Lean can evaluate it. -/

namespace Sys2Proof

/-- FREE VALUE (log 8). R9: "Where one step produces events for several blocks, the tracker orders them only where
R3, R6 and R8 give an order." The `n`-th choice of the place at which an event the spec does not order
stands among the events of its encoder step that come after the count's change. -/
opaque Config.eventPlace : Nat → Nat

/-- FREE VALUE (log 28). Which of two level onsets that one SET-GUARD raises is taken first (R172 gives no order):
true when WARP-STOP comes before MODULE-FAULT. -/
opaque Config.warpFirst : Nat → Bool

/-- FREE VALUE (log 25). The revision of the part that IDENTIFY returns (R182); the spec gives no number and no range. -/
opaque Config.revision : Half

/-- FREE VALUE (log 25). Whether the revision's field has two bytes, or one: R189 lets the range decide ("one byte when its
range fits 0 to 255 and two bytes otherwise"), and R182 gives the revision no range. -/
opaque Config.revisionWide : Bool

/-- The revision as IDENTIFY carries it (R182), low byte first (R189). -/
def Config.revisionField : List Byte :=
  Config.revision.setWidth 8 :: if Config.revisionWide then [(Config.revision >>> 8).setWidth 8] else []

/-- FREE VALUE (log 25). By how many bytes the field for "65,536 cells" among the capacities of IDENTIFY (R182) is longer
than the three that hold the number: R189 gives no width for it. One frame carries no more. -/
opaque Config.cellsExtra : Fin 4074

/-- "65,536 cells" among the capacities of IDENTIFY (R182), low byte first (R189). -/
def Config.cellsField : List Byte := [0, 0, 1] ++ List.replicate Config.cellsExtra 0

/-- FREE VALUE (log 25). The byte that stands for FREE in an owner map entry of READ-STORE (R35); no rule gives it. -/
opaque Config.freeOwner : Byte

/-- The largest chain, in modules (R100). -/
def Config.maxModules : Nat := 96

/-- Hooks of one module (section 6.1). -/
def Config.hooksPerModule : Nat := 128

/-- Shift positions of one module: 128 lifts and eight status positions (section 6.1). -/
def Config.moduleLength : Nat := 136

/-- Cells of one storage block (R20). -/
def Config.blockCells : Nat := 65536

end Sys2Proof
end

