-- ==== Sys2Proof/Syntax.lean ====
section
/-! DEFINITION. The commands of the block: one constructor per row of spec/opcode_table.json, with the operands the
row's rule names. A request row stands for the end of a good frame of that request on its link (log 11). -/

namespace Sys2Proof

/-- What a READ-NOTICES meets of its link's error counter (R180, R186): whether its clear list names LINK-ERRORS, and
whether the start character of an overlapping frame is taken before the interface gathers its values (log 41). -/
structure ErrorsRead where
  clear : Bool
  overlapped : Bool
  deriving DecidableEq, Repr

/-- The commands of the block. -/
inductive Instr
  /-- ENCODER_STEP (R1): the decoded direction and the sampled level of ENCZ (log 4). -/
  | encoderStep (dir : Dir) (encz : Bool)
  /-- ENCODER_ERROR (R1): ENCA and ENCB change together; the sampled level of ENCZ. -/
  | encoderError (encz : Bool)
  /-- SETTLE_TIMER_EXPIRY (R10). -/
  | settleTimerExpiry
  /-- STALL_TIMER_EXPIRY (R13). -/
  | stallTimerExpiry
  /-- WSTOP_CHANGE (R163): the new level of WSTOP (log 35). -/
  | wstopChange (level : Bool)
  /-- FILTER_TIMER_EXPIRY (R163). -/
  | filterTimerExpiry
  /-- ARRIVAL_EDGE (R87). -/
  | arrivalEdge
  /-- POWER_ON_RESET (R16): ENCZ and WSTOP as sampled at reset release. -/
  | powerOnReset (encz wstop : Bool)
  /-- BREAK (R179) on a link. -/
  | lineBreak (link : LinkId)
  /-- FRAME_ERROR (R176): the characters on the line (log 12). -/
  | frameError (link : LinkId) (chars : List LineChar)
  /-- UNKNOWN_REQUEST (R176): the characters on the line (log 12). -/
  | unknownRequest (link : LinkId) (chars : List LineChar)
  /-- OVERLAPPING_FRAME (R178): the characters on the line (log 12). -/
  | overlappingFrame (link : LinkId) (chars : List LineChar)
  /-- RESPONSE_SENT (R177). -/
  | responseSent (link : LinkId)
  /-- IDENTIFY (R182). -/
  | identify (link : LinkId)
  /-- READ_NOTICES (R186): the kinds of the clear list, and what becomes of the link error counter (R180, log 41). -/
  | readNotices (link : LinkId) (clear : List NoticeKind) (linkErrors : ErrorsRead)
  /-- SET_NOTICE_MASK (R187). -/
  | setNoticeMask (link : LinkId) (mask : List NoticeKind)
  /-- READ_STATUS (R183). -/
  | readStatus
  /-- READINESS (R184). -/
  | readiness
  /-- MOTION_FORWARD (R120). -/
  | motionForward
  /-- MOTION_FIND (R121). -/
  | motionFind
  /-- MOTION_POSITION (R122). -/
  | motionPosition
  /-- STOP (R123). -/
  | stop
  /-- SET_SCHEDULE (R14). -/
  | setSchedule (sched : Schedule)
  /-- READ_SCHEDULE (R15). -/
  | readSchedule
  /-- DEFINE_DESIGN (R22). -/
  | defineDesign (slot width height : Nat) (map : Vector Nat 16)
  /-- WRITE_FIGURE (R23). -/
  | writeFigure (slot card column : Nat) (cells : List (BitVec 4))
  /-- WRITE_CARDS (R24). -/
  | writeCards (slot card : Nat) (records : List CardRecord)
  /-- READ_FIGURE (R25). -/
  | readFigure (slot card column count : Nat)
  /-- READ_CARDS (R25). -/
  | readCards (slot card count : Nat)
  /-- COMMIT_DESIGN (R26). -/
  | commitDesign (slot : Nat)
  /-- COMMIT_SCAN_END (R26). -/
  | commitScanEnd
  /-- REOPEN_DESIGN (R28). -/
  | reopenDesign (slot : Nat)
  /-- ERASE_DESIGN (R29). -/
  | eraseDesign (slot : Nat)
  /-- READ_STORE (R35). -/
  | readStore
  /-- DEFINE_WEAVE (R39): the lifts pick row by pick row. -/
  | defineWeave (entry width height : Nat) (lifts : List Bool)
  /-- READ_WEAVE (R41). -/
  | readWeave (entry : Nat)
  /-- SET_SECTION (R49): no record stands for ABSENT. -/
  | setSection (number : Nat) (record : Option SectionRecord)
  /-- SET_DEAD_LIST (R50). -/
  | setDeadList (hooks : List Nat)
  /-- ADD_DEAD_HOOK (R51). -/
  | addDeadHook (hook : Nat)
  /-- REMOVE_DEAD_HOOK (R51). -/
  | removeDeadHook (hook : Nat)
  /-- READ_HARNESS (R53). -/
  | readHarness
  /-- SET_FEEDER (R77). -/
  | setFeeder (feeder : Nat) (service : Service) (limit : Option Nat)
  /-- RESTORE_FEEDER (R79). -/
  | restoreFeeder (feeder : Nat)
  /-- SET_GROUP (R80). -/
  | setGroup (group : Nat) (primary partner : Option Nat) (mode : GroupMode)
  /-- READ_WEFT (R95): the clear set, feeders by bit, then the two edge counts. -/
  | readWeft (link : LinkId) (faulted totals : BitVec 8) (extra stray : Bool)
  /-- WEFT_PLAN (R94). -/
  | weftPlan
  /-- WEFT_REPORT (R91). -/
  | weftReport (serial : Half) (outcome : Insertion)
  /-- FEEDER_STATE (R78). -/
  | feederState (feeder : Nat) (report : FeederReport)
  /-- CENSUS (R100). -/
  | census
  /-- CENSUS_RESULT (R100): the shift positions after which the marker returned, or none (log 21). -/
  | censusResult (marker : Option Nat)
  /-- HOOK_TEST (R112). -/
  | hookTest
  /-- HOOK_TEST_END (R112): what came back at each stage, module 0 first (log 22). -/
  | hookTestEnd (stages : List StageReturn)
  /-- READ_MODULES with refresh NO (R113): the modules of the clear set. -/
  | readModules (clear : List Nat)
  /-- STATUS_REFRESH: READ-MODULES with refresh YES (R115). -/
  | statusRefresh (clear : List Nat)
  /-- REFRESH_COMPLETION (R115): the statuses received, module 0 first (log 20). -/
  | refreshCompletion (statuses : List EchoStatus)
  /-- SET_ECHO_BUDGET (R116). -/
  | setEchoBudget (threshold : Nat)
  /-- SELECT_DESIGN (R125). -/
  | selectDesign (slot card : Nat)
  /-- READ_HISTORY (R141). -/
  | readHistory (depth count : Nat)
  /-- RESET_SEQUENCER (R143). -/
  | resetSequencer
  /-- QUEUE_CHANGE (R147). -/
  | queueChange (slot card : Nat) (condition : Condition) (phaseReset : Bool)
  /-- CANCEL_CHANGES (R149). -/
  | cancelChanges
  /-- READ_CHANGES (R158). -/
  | readChanges
  /-- SET_MARK (R150). -/
  | setMark (comparator : Nat) (mode : CompMode) (value mask : BitVec 8) (notice stop : Bool)
  /-- SET_GUARD (R172). -/
  | setGuard (setting : GuardSetting)
  /-- READ_GUARD (R173): the triggers of the clear set. -/
  | readGuard (clear : List Trigger)
  /-- CLEAR_HALT (R171). -/
  | clearHalt
  /-- CLEAR_GUARD_COUNT (R169). -/
  | clearGuardCount
  /-- JOB_COMPLETION (R65). -/
  | jobCompletion
  /-- TRANSFER_COMPLETION (R103): the echo received, module 0 first (log 20). -/
  | transferCompletion (echo : List ModuleEcho)
  /-- TAKE_COMPLETION (R109). -/
  | takeCompletion
  /-- ENCODING_FAULT (R191): the characters on the line (log 12). -/
  | encodingFault (link : LinkId) (chars : List LineChar)
  deriving DecidableEq, Repr

end Sys2Proof
end

