-- ==== Sys2Proof/WellFormed.lean ====
section
/-! DEFINITION. Which commands can stand on the part's lines: the operands fit the fields of the layouts (R189, R191,
R193), the counts a request carries pass the encoding check, and an event's operand has the shape of what the chain can
return. The machine is total on the others too (log 34). -/

namespace Sys2Proof

/-- The result of the encoding check of R176 step 3 and R191 on a request whose operands are already decoded. -/
inductive EncodingCheck | good | badArgument | frameError
  deriving DecidableEq, Repr

/-- R191: a count above its request's maximum, or 0 where at least 1 is required, is a BAD-ARGUMENT of the link. -/
def countCheck (least most n : Nat) : EncodingCheck :=
  if least ≤ n ∧ n ≤ most then .good else .badArgument

/-- R191: the checks of WRITE-CARDS: count 1 to 512, and each pick repeat field 1 to 4. -/
def cardsCheck (records : List CardRecord) : EncodingCheck :=
  if records.all (fun r => 1 ≤ r.pickRepeat && r.pickRepeat ≤ 4) then countCheck 1 512 records.length
  else .badArgument

/-- R191: a DEFINE-WEAVE whose count of lifts disagrees with width × height has a wrong length. -/
def weaveCheck (width height : Nat) (lifts : List Bool) : EncodingCheck :=
  if lifts.length = width * height then .good else .frameError

/-- A number that a field of one byte can carry. -/
def fits8 (n : Nat) : Bool := n < 256

/-- A number that a field of two bytes can carry. -/
def fits16 (n : Nat) : Bool := n < 65536

/-- The fields of a section record fit the 13 bytes of R193. -/
def SectionRecord.fits : SectionRecord → Bool
  | .figure f l _ _ c s w => fits16 f && fits16 l && fits16 c && fits16 s && fits8 w
  | .fixed f l v w => fits16 f && fits16 l && fits8 v && fits8 w
  | .down f l => fits16 f && fits16 l

/-- A feeder operand that may be absent: 255 stands for absent (R193). -/
def feederFits : Option Nat → Bool
  | none => true
  | some f => f < 255

/-- The argument of a condition fits two bytes (R193). -/
def Condition.fits : Condition → Bool
  | .nextPick => true
  | .atRepeatEnd => true
  | .atMark k => fits16 k
  | .atCount n => fits16 n

/-- A run of characters that opens a frame: the start character, received without error (R175). -/
def opensFrame : List LineChar → Bool
  | [] => false
  | c :: _ => c.byte = 0xA5 && !c.err

/-- The command can stand on the part's lines. -/
def Instr.wf : Instr → Bool
  | .encoderStep _ _ => true
  | .encoderError _ => true
  | .settleTimerExpiry => true
  | .stallTimerExpiry => true
  | .wstopChange _ => true
  | .filterTimerExpiry => true
  | .arrivalEdge => true
  | .powerOnReset _ _ => true
  | .lineBreak _ => true
  | .frameError _ cs => opensFrame cs
  | .unknownRequest _ cs => opensFrame cs
  | .overlappingFrame _ cs => opensFrame cs
  | .encodingFault _ cs => opensFrame cs
  | .responseSent _ => true
  | .identify _ => true
  | .readNotices _ _ _ => true
  | .setNoticeMask _ _ => true
  | .readStatus => true
  | .readiness => true
  | .motionForward => true
  | .motionFind => true
  | .motionPosition => true
  | .stop => true
  | .setSchedule c => fits16 c.latch && fits16 c.opening && fits16 c.closing && fits16 c.prep && fits16 c.xfer &&
      fits8 c.settle && fits8 c.stall
  | .readSchedule => true
  | .defineDesign s w h m => fits8 s && fits16 w && fits16 h && m.toList.all fits8
  | .writeFigure s c j cells => fits8 s && fits16 c && fits16 j && countCheck 1 8000 cells.length = .good
  | .writeCards s c rs => fits8 s && fits16 c && cardsCheck rs = .good
  | .readFigure s c j n => fits8 s && fits16 c && fits16 j && countCheck 1 8000 n = .good
  | .readCards s c n => fits8 s && fits16 c && countCheck 1 512 n = .good
  | .commitDesign s => fits8 s
  | .commitScanEnd => true
  | .reopenDesign s => fits8 s
  | .eraseDesign s => fits8 s
  | .readStore => true
  | .defineWeave e w h ls => fits8 e && fits8 w && fits8 h && weaveCheck w h ls = .good && ls.length ≤ 32744
  | .readWeave e => fits8 e
  | .setSection n r => fits8 n && (match r with | none => true | some x => x.fits)
  | .setDeadList hs => hs.all fits16 && countCheck 0 128 hs.length = .good
  | .addDeadHook h => fits16 h
  | .removeDeadHook h => fits16 h
  | .readHarness => true
  | .setFeeder f _ k => fits8 f && (match k with | none => true | some n => fits8 n)
  | .restoreFeeder f => fits8 f
  | .setGroup g p q _ => fits8 g && feederFits p && feederFits q
  | .readWeft l _ _ _ _ => Request.readWeft.onLink l
  | .weftPlan => true
  | .weftReport _ _ => true
  | .feederState f _ => fits8 f
  | .census => true
  | .censusResult m => (match m with | none => true | some n => 0 < n)
  | .hookTest => true
  | .hookTestEnd st => st.length ≤ Config.maxModules
  | .readModules c => c.all fits8 && fits8 c.length
  | .statusRefresh c => c.all fits8 && fits8 c.length
  | .refreshCompletion st => st.length ≤ Config.maxModules
  | .setEchoBudget t => fits8 t
  | .selectDesign s c => fits8 s && fits16 c
  | .readHistory d n => fits8 d && fits8 n && 1 ≤ n
  | .resetSequencer => true
  | .queueChange s c k _ => fits8 s && fits16 c && k.fits
  | .cancelChanges => true
  | .readChanges => true
  | .setMark k _ _ _ _ _ => fits8 k
  | .setGuard g => fits8 g.limit && fits8 g.filterTime
  | .readGuard _ => true
  | .clearHalt => true
  | .clearGuardCount => true
  | .jobCompletion => true
  | .transferCompletion e => e.length ≤ Config.maxModules && e.all (fun m => m.lifts.length = Config.hooksPerModule)
  | .takeCompletion => true

end Sys2Proof
end

