-- ==== Sys2Proof/Decode.lean ====
section
/-! DEFINITION. From the characters of a request frame to the command it carries: the frame and its check (R175, R189,
R190), the request codes and the encoding check (R176, R191) and the layouts of every request (sections 11.1 to 11.3,
R193). Total on any characters. No row of the opcode table gives bits, so decodeTableWord reads none. -/

namespace Sys2Proof

/-- No row of spec/opcode_table.json gives bits: a word spells no command of this block. -/
def decodeTableWord (_nbits _w : Nat) : Option Instr := none

/-! ### The check of a frame (R190) -/

/-- One bit of the check: the register moves one place and takes the generator x¹⁶ + x¹² + x⁵ + 1 when the bit
that leaves it is set. -/
def crcShift (r : BitVec 16) : BitVec 16 := if r.msb then (r <<< 1) ^^^ 0x1021 else r <<< 1

/-- One byte of the check, most significant bit first. -/
def crcByte (r : BitVec 16) (b : Byte) : BitVec 16 :=
  (List.range 8).foldl (fun x _ => crcShift x) (r ^^^ (b.setWidth 16 <<< 8))

/-- The 16-bit check over a run of bytes, from 0xFFFF (R190). -/
def crc16 (bs : List Byte) : BitVec 16 := bs.foldl crcByte 0xFFFF

/-! ### Fields of a payload, low byte first (R189) -/

/-- The one-byte field at place `i`. -/
def u8 (p : List Byte) (i : Nat) : Nat := (p.getD i 0).toNat

/-- The two-byte field at place `i`. -/
def u16 (p : List Byte) (i : Nat) : Nat := u8 p i + 256 * u8 p (i + 1)

/-- Bit `k` of the run of bytes that starts at place `i`, bit 0 of the first byte first. -/
def bitAt (p : List Byte) (i k : Nat) : Bool := (p.getD (i + k / 8) 0).getLsbD (k % 8)

/-- The numbers below `n` whose bit is set in the mask at place `i` (R193). -/
def maskAt (p : List Byte) (i n : Nat) : List Nat := (List.range n).filter (bitAt p i)

/-- Every bit from `a` up to `b` of the run of bytes at place `i` is 0: bits that a layout leaves without a field
(R191). -/
def zeroBits (p : List Byte) (i a b : Nat) : Bool := (List.range (b - a)).all (fun k => !bitAt p i (a + k))

/-- A flag or choice of two values: 0 or 1 (R193). -/
def flagOf : Nat → Option Bool
  | 0 => some false
  | 1 => some true
  | _ => none

/-- A condition from its kind and argument; the argument of a condition that has none is 0 (R193, log 30). -/
def conditionOf : Nat → Nat → Option Condition
  | 0, 0 => some .nextPick
  | 1, 0 => some .atRepeatEnd
  | 2, k => some (.atMark k)
  | 3, n => some (.atCount n)
  | _, _ => none

/-- A feeder field: 255 stands for absent (R193). -/
def feederField (n : Nat) : Option Nat := if n = 255 then none else some n

/-- An optional one-byte field: presence byte, then the value, 0 when absent (R193, log 30). The outer option is
the encoding check. -/
def optionalField : Nat → Nat → Option (Option Nat)
  | 0, 0 => some none
  | 1, v => some (some v)
  | _, _ => none

/-- The card record at place `i` (section 11.2), with the encoding checks of R191. -/
def cardAt (p : List Byte) (i : Nat) : Option CardRecord :=
  let number : Fin 8 := ⟨u8 p i % 8, Nat.mod_lt _ (by decide)⟩
  let kind := u8 p i / 16 % 4
  let rep := u8 p (i + 2) % 8
  if bitAt p i 3 || bitAt p i 6 || bitAt p i 7 || !zeroBits p (i + 2) 3 7 || 2 ≤ kind || rep = 0 || 4 < rep then none
  else some ⟨if kind = 0 then .feeder number else .colour number, p.getD (i + 1) 0, rep, bitAt p (i + 2) 7⟩

/-- A card record for each place of a list, or none when one of them fails its check. -/
def cardsAt (p : List Byte) : List Nat → Option (List CardRecord)
  | [] => some []
  | i :: is =>
    match cardAt p i, cardsAt p is with
    | some c, some cs => some (c :: cs)
    | _, _ => none

/-- The harness section at place `i`, 13 bytes (R193): a field that the role does not have carries 0. The outer
option is the encoding check, the inner one ABSENT. -/
def sectionAt (p : List Byte) (i : Nat) : Option (Option SectionRecord) :=
  let first := u16 p (i + 1)
  let last := u16 p (i + 3)
  let weave := u8 p (i + 5)
  let start := u16 p (i + 8)
  let span := u16 p (i + 10)
  let shift := u8 p (i + 12)
  match u8 p i with
  | 0 => if zeroBits p (i + 1) 0 96 then some none else none
  | 1 =>
    match flagOf (u8 p (i + 6)), flagOf (u8 p (i + 7)), weave with
    | some t, some d, 0 => some (some (.figure first last (if t then .point else .straight)
        (if d then .descending else .ascending) start span shift))
    | _, _, _ => none
  | 2 => if zeroBits p (i + 6) 0 48 then some (some (.fixed first last weave shift)) else none
  | 3 => if zeroBits p (i + 5) 0 64 then some (some (.down first last)) else none
  | _ => none

/-- The guard setting of SET-GUARD (R172, R193): 13 pairs of enable and counts, shed, limit, auto-clear run (2),
filter time. -/
def guardAt (p : List Byte) : Option GuardSetting :=
  if (p.take 27).all (fun b => b.toNat ≤ 1) then
    some ⟨Vector.ofFn fun t => u8 p (2 * t.1) = 1, Vector.ofFn fun t => u8 p (2 * t.1 + 1) = 1,
      if u8 p 26 = 1 then .close else .hold, u8 p 27, BitVec.ofNat 16 (u16 p 28), u8 p 30⟩
  else none

/-- The notice kinds of the mask at place `i` (R193). -/
def kindsAt (p : List Byte) (i : Nat) : List NoticeKind :=
  (maskAt p i 16).filterMap (fun k => NoticeKind.all[k]?)

/-- The triggers of the mask at place `i` (R193). -/
def triggersAt (p : List Byte) (i : Nat) : List Trigger :=
  (maskAt p i 13).filterMap (fun k => Trigger.all[k]?)

/-! ### Requests -/

/-- What the checks of R176 make of a frame. -/
inductive Decoded
  | frameError
  | unknownRequest
  | badArgument
  | request (i : Instr)
  deriving DecidableEq, Repr

/-- R191: a length the layout does not allow is FRAME-ERROR; a value that is none of its kind is BAD-ARGUMENT. -/
def laidOut (length wanted : Nat) (i : Option Instr) : Decoded :=
  if length = wanted then (match i with | some c => .request c | none => .badArgument) else .frameError

/-- A value that passes the encoding check when the condition holds. -/
def passing (c : Bool) (i : Instr) : Option Instr := if c then some i else none

/-- The request of a payload (R191, R193 and the layouts of sections 11.2 and 11.4). -/
def decodeRequest (l : LinkId) (r : Request) (p : List Byte) : Decoded :=
  let n := p.length
  match r with
  | .identify => laidOut n 0 (some (.identify l))
  | .readNotices => laidOut n 4 (passing (zeroBits p 0 17 32) (.readNotices l (kindsAt p 0) ⟨bitAt p 0 16, false⟩))
  | .setNoticeMask => laidOut n 4 (passing (zeroBits p 0 16 32) (.setNoticeMask l (kindsAt p 0)))
  | .readStatus => laidOut n 0 (some .readStatus)
  | .readiness => laidOut n 0 (some .readiness)
  | .motion => laidOut n 1 [Instr.motionForward, .motionFind, .motionPosition, .stop][u8 p 0]?
  | .setSchedule => laidOut n 12
      (some (.setSchedule ⟨u16 p 0, u16 p 2, u16 p 4, u16 p 6, u16 p 8, u8 p 10, u8 p 11⟩))
  | .readSchedule => laidOut n 0 (some .readSchedule)
  | .defineDesign => laidOut n 21
      (some (.defineDesign (u8 p 0) (u16 p 1) (u16 p 3) (Vector.ofFn fun e => u8 p (5 + e.1))))
  | .writeFigure => laidOut n (7 + ceilDiv (u16 p 5) 2)
      (passing (countCheck 1 8000 (u16 p 5) = .good && zeroBits p 7 (4 * u16 p 5) (8 * ceilDiv (u16 p 5) 2))
        (.writeFigure (u8 p 0) (u16 p 1) (u16 p 3)
          ((List.range (u16 p 5)).map fun k => BitVec.ofNat 4 (u8 p (7 + k / 2) / (if k % 2 = 0 then 1 else 16)))))
  | .writeCards => laidOut n (5 + 3 * u16 p 3)
      (if countCheck 1 512 (u16 p 3) = .good then
        (cardsAt p ((List.range (u16 p 3)).map fun k => 5 + 3 * k)).map (.writeCards (u8 p 0) (u16 p 1))
      else none)
  | .readFigure => laidOut n 7
      (passing (countCheck 1 8000 (u16 p 5) = .good) (.readFigure (u8 p 0) (u16 p 1) (u16 p 3) (u16 p 5)))
  | .readCards => laidOut n 5
      (passing (countCheck 1 512 (u16 p 3) = .good) (.readCards (u8 p 0) (u16 p 1) (u16 p 3)))
  | .commitDesign => laidOut n 1 (some (.commitDesign (u8 p 0)))
  | .reopenDesign => laidOut n 1 (some (.reopenDesign (u8 p 0)))
  | .eraseDesign => laidOut n 1 (some (.eraseDesign (u8 p 0)))
  | .readStore => laidOut n 0 (some .readStore)
  | .defineWeave =>
    let lifts := u8 p 1 * u8 p 2
    laidOut n (3 + ceilDiv lifts 8)
      (passing (zeroBits p 3 lifts (8 * ceilDiv lifts 8))
        (.defineWeave (u8 p 0) (u8 p 1) (u8 p 2) ((List.range lifts).map (bitAt p 3))))
  | .readWeave => laidOut n 1 (some (.readWeave (u8 p 0)))
  | .setSection => laidOut n 14 ((sectionAt p 1).map (.setSection (u8 p 0)))
  | .setDeadList => laidOut n (1 + 2 * u8 p 0)
      (passing (countCheck 0 128 (u8 p 0) = .good)
        (.setDeadList ((List.range (u8 p 0)).map fun k => u16 p (1 + 2 * k))))
  | .addDeadHook => laidOut n 2 (some (.addDeadHook (u16 p 0)))
  | .removeDeadHook => laidOut n 2 (some (.removeDeadHook (u16 p 0)))
  | .readHarness => laidOut n 0 (some .readHarness)
  | .setFeeder => laidOut n 4
      (match [Service.into, .out, .keep][u8 p 1]?, optionalField (u8 p 2) (u8 p 3) with
        | some c, some k => some (.setFeeder (u8 p 0) c k)
        | _, _ => none)
  | .restoreFeeder => laidOut n 1 (some (.restoreFeeder (u8 p 0)))
  | .setGroup => laidOut n 4
      ((flagOf (u8 p 3)).map fun a => .setGroup (u8 p 0) (feederField (u8 p 1)) (feederField (u8 p 2))
        (if a then .alternate else .single))
  | .readWeft => laidOut n 3
      (passing (zeroBits p 2 2 8) (.readWeft l (p.getD 0 0) (p.getD 1 0) (bitAt p 2 0) (bitAt p 2 1)))
  | .weftPlan => laidOut n 0 (some .weftPlan)
  | .weftReport => laidOut n 3
      ([Insertion.inserted, .yarnBreak, .transferFail][u8 p 2]?.map (.weftReport (BitVec.ofNat 16 (u16 p 0))))
  | .feederState => laidOut n 2
      ((flagOf (u8 p 1)).map fun b => .feederState (u8 p 0) (if b then .back else .out))
  | .census => laidOut n 0 (some .census)
  | .hookTest => laidOut n 0 (some .hookTest)
  | .readModules => laidOut n (u8 p 0 + 2)
      ((flagOf (u8 p (u8 p 0 + 1))).map fun b =>
        let clear := (List.range (u8 p 0)).map fun k => u8 p (1 + k)
        if b then .statusRefresh clear else .readModules clear)
  | .setEchoBudget => laidOut n 1 (some (.setEchoBudget (u8 p 0)))
  | .selectDesign => laidOut n 3 (some (.selectDesign (u8 p 0) (u16 p 1)))
  | .readHistory => laidOut n 2 (passing (1 ≤ u8 p 1) (.readHistory (u8 p 0) (u8 p 1)))
  | .resetSequencer => laidOut n 0 (some .resetSequencer)
  | .queueChange => laidOut n 7
      (match conditionOf (u8 p 3) (u16 p 4), flagOf (u8 p 6) with
        | some c, some f => some (.queueChange (u8 p 0) (u16 p 1) c f)
        | _, _ => none)
  | .cancelChanges => laidOut n 0 (some .cancelChanges)
  | .readChanges => laidOut n 0 (some .readChanges)
  | .setMark => laidOut n 5
      (match [CompMode.off, .matching, .any][u8 p 1]?, zeroBits p 4 2 8 with
        | some m, true => some (.setMark (u8 p 0) m (p.getD 2 0) (p.getD 3 0) (bitAt p 4 0) (bitAt p 4 1))
        | _, _ => none)
  | .setGuard => laidOut n 31 ((guardAt p).map .setGuard)
  | .readGuard => laidOut n 2 (passing (zeroBits p 0 13 16) (.readGuard (triggersAt p 0)))
  | .clearHalt => laidOut n 0 (some .clearHalt)
  | .clearGuardCount => laidOut n 0 (some .clearGuardCount)

/-- The request of a code on a link, when the link carries it (R176 step 2, R190). -/
def requestOf (l : LinkId) (code : Byte) : Option Request :=
  Request.all.find? fun r => r.code = code && r.onLink l

/-! ### Frames -/

/-- A frame in assembly (R175): the characters received after the start character, and the character-error flag.
The request code is the first of them and the payload length the second and third. -/
structure Assembly where
  bytes : List Byte
  err : Bool
  deriving DecidableEq, Repr

/-- A frame in assembly with one more character: added as received; an error sets the flag (R175). -/
def Assembly.add (a : Assembly) (c : LineChar) : Assembly := ⟨a.bytes ++ [c.byte], a.err || c.err⟩

/-- The request code of a frame in assembly. -/
def Assembly.code (a : Assembly) : Byte := a.bytes.getD 0 0

/-- The payload length, once it has been received. -/
def Assembly.length (a : Assembly) : Nat := u16 a.bytes 1

/-- The payload of a frame that has ended. -/
def Assembly.payload (a : Assembly) : List Byte := (a.bytes.drop 3).take a.length

/-- R175: a payload length above 4096 ends the frame at once; otherwise the last character of its check does. -/
def Assembly.ended (a : Assembly) : Bool :=
  3 ≤ a.bytes.length && (4096 < a.length || a.length + 5 ≤ a.bytes.length)

/-- R176: the three checks of a frame that has ended in RECEIVING, in their order. -/
def Assembly.decode (l : LinkId) (a : Assembly) : Decoded :=
  if 4096 < a.length ∨ a.err = true ∨
      u16 a.bytes (3 + a.length) ≠ (crc16 (a.bytes.take (3 + a.length))).toNat then .frameError
  else
    match requestOf l a.code with
    | none => .unknownRequest
    | some r => decodeRequest l r a.payload

end Sys2Proof
end

