-- ==== Sys2Proof/Machine/State.lean ====
section
/-! DEFINITION. The whole state of the block as plain data, unit by unit as the state tables of chapters 1 to 10 give
it, and the state right after power-on reset (R16, R37, R54, R75, R96, R117, R144, R159, R174, R188). -/

namespace Sys2Proof.Machine

/-! ### ANG, the Angle Tracker (chapter 1) -/

/-- Whether the count is known to agree with the index mark. -/
inductive IndexState | unindexed | indexed
  deriving DecidableEq, Repr

/-- Whether the shaft is declared at rest. -/
inductive RestState | moving | atRest
  deriving DecidableEq, Repr

/-- The stall watch (R13). -/
inductive StallWatch | off | armed | expired
  deriving DecidableEq, Repr

/-- The state of the Angle Tracker. A running timer holds the time in milliseconds with which it was started
(R12). -/
structure Ang where
  count : Int
  index : IndexState
  indexLevel : Bool
  dir : Dir
  rest : RestState
  restAngle : Nat
  reverseTravel : Nat
  settleTimer : Option Nat
  stallWatch : StallWatch
  stallTimer : Option Nat
  sched : Schedule
  armed : List SchedAngle
  faultTotal : Nat
  deriving DecidableEq, Repr

/-! ### FST, the Figure Store (chapter 2) -/

/-- The state of a slot (R17). -/
inductive SlotState | empty | loading | valid
  deriving DecidableEq, Repr

/-- The header and contents of a slot that is not EMPTY. `cells` lists the figure cells by their position in the
sequence of R20 and `cards` the card records by the first position of theirs, each in the canonical form of
Memory.wf: an unlisted cell is 0 and an unlisted record is the initial one (R18). -/
structure Design where
  width : Nat
  height : Nat
  map : Vector Nat 16
  cells : List (Nat × BitVec 4)
  cards : List (Nat × CardRecord)
  deriving DecidableEq, Repr

/-- The reference counts of a slot, one for each hold reason (section 2.7). -/
structure Refs where
  cursor : Nat
  staged : Nat
  latched : Nat
  history : Nat
  queue : Nat
  deriving DecidableEq, Repr

/-- The hold reasons (section 2.7), in the order of R193. -/
inductive HoldReason | cursor | staged | latched | history | queue
  deriving DecidableEq, Repr

/-- A design slot (chapter 2, state table). -/
structure Slot where
  state : SlotState
  design : Option Design
  blocks : List Nat
  nonVoid : Option Nat
  scanning : Bool
  refs : Refs
  deriving DecidableEq, Repr

/-- The state of the Figure Store. An owner map entry of `none` is FREE. -/
structure Fst where
  slots : Vector Slot 8
  owner : Vector (Option (Fin 8)) 256
  free : Nat
  deriving DecidableEq, Repr

/-! ### WLB and HMP (chapter 3) -/

/-- A weave entry: its lifts pick row by pick row, each row from end column 0, true for raised (R38, R39). -/
structure Weave where
  width : Nat
  height : Nat
  lifts : List Bool
  deriving DecidableEq, Repr

/-- The state of the Harness Map; a section of `none` is ABSENT (R42). -/
structure Hmp where
  sections : Vector (Option SectionRecord) 16
  dead : List Nat
  deriving DecidableEq, Repr

/-! ### The cursor and XPE (chapter 4) -/

/-- A cursor record (R55). -/
structure Cursor where
  slot : Fin 8
  card : Nat
  rep : Nat
  pass : Half
  phase : Half
  serial : Half
  deriving DecidableEq, Repr

/-- The alternation state of a colour group (R81). -/
inductive Alternation | primaryNext | partnerNext
  deriving DecidableEq, Repr

/-- The colour group of a plan with the alternation state found before planning: both are present for a COLOUR
card and absent for a FEEDER card (R61, R81). -/
structure PlannedGroup where
  group : Fin 8
  before : Alternation
  deriving DecidableEq, Repr

/-- A pick plan record (R61). Its serial is the serial of its cursor record, the snapshot. -/
structure Plan where
  cursor : Cursor
  feeder : Option (Fin 8)
  group : Option PlannedGroup
  mark : BitVec 8
  complete : Bool
  echoMismatch : Bool
  deriving DecidableEq, Repr

/-- The kind of an expansion job (chapter 4, state table). -/
inductive JobKind | schedule | present
  deriving DecidableEq, Repr

/-- An expansion job in flight: kind, snapshot, and how many hooks its image has (R62 steps 1 and 2). -/
structure Job where
  kind : JobKind
  snapshot : Cursor
  hooks : Nat
  deriving DecidableEq, Repr

/-- The staging buffer (R60): the lift of hook h stands at place h of the image, true for raised. -/
inductive Staging
  | empty
  | filling (plan : Plan)
  | complete (plan : Plan) (image : List Bool)
  deriving DecidableEq, Repr

/-- The state of the Expansion Engine; no job is IDLE. -/
structure Xpe where
  job : Option Job
  staging : Staging
  deriving DecidableEq, Repr

/-! ### SEQ, the Pick Sequencer (chapters 4 and 7) -/

/-- The sequencer states (R118), in the order of their codes. -/
inductive SeqState | unloaded | presenting | ready | running | stopping | finding | guard | halted
  deriving DecidableEq, Repr

/-- The motion grants (R119), in the order of their codes. -/
inductive Grant | none | forward | find | position
  deriving DecidableEq, Repr

/-- The stages of a PRESENT job (R69, R70). -/
inductive Stage | expanding | transferring | taking
  deriving DecidableEq, Repr

/-- The PRESENT job record. -/
structure PresentJob where
  snapshot : Cursor
  stage : Stage
  deriving DecidableEq, Repr

/-- The applied-change record of a history entry (R130, R154). -/
structure AppliedChange where
  id : Half
  slot : Fin 8
  card : Nat
  condition : Condition
  phaseReset : Bool
  deriving DecidableEq, Repr

/-- A history entry (R130). Its serial is the serial of its cursor record. `hits` holds the comparators of the
mark-hit set, ascending. -/
structure HistEntry where
  cursor : Cursor
  feeder : Option (Fin 8)
  group : Option PlannedGroup
  hits : List (Fin 4)
  counted : Option Half
  applied : Option AppliedChange
  echoMismatch : Bool
  suspect : Bool
  deriving DecidableEq, Repr

/-- MODEL'S OWN (log 40): whether the presentation that a map write in READY orders is still to be made (R52): no, by the
next TAKE, or, where a TAKE was in progress at the write, by the TAKE after that one. -/
inductive Owed | no | nextTake | afterTake
  deriving DecidableEq, Repr

/-- The state of the Pick Sequencer. `history` is oldest first. `findWaiting` counts the find steps that wait for a
TAKE completion (R134 step 1) and `presentWaiting` says that a PRESENT order waits for one (R71). `representOwed` is the
MODEL'S OWN (log 40): what a map write in READY has left to be presented (R52). -/
structure Seq where
  state : SeqState
  grant : Grant
  coasting : Bool
  runDown : Bool
  cursor : Option Cursor
  serial : Half
  present : Option PresentJob
  findWaiting : Nat
  presentWaiting : Bool
  history : List HistEntry
  woven : BitVec 32
  representOwed : Owed
  deriving DecidableEq, Repr

/-! ### CHU, the Change Unit (chapter 8) -/

/-- A change entry (R145); `remaining` is present for AT-COUNT. -/
structure Change where
  id : Half
  slot : Fin 8
  card : Nat
  condition : Condition
  remaining : Option Nat
  phaseReset : Bool
  deriving DecidableEq, Repr

/-- A mark comparator: its setting (R150) and its hit counter. -/
structure Comparator where
  mode : CompMode
  value : BitVec 8
  mask : BitVec 8
  notice : Bool
  stop : Bool
  hits : Nat
  deriving DecidableEq, Repr

/-- The state of the Change Unit; `queue` is head first. -/
structure Chu where
  queue : List Change
  nextId : Half
  comps : Vector Comparator 4
  deriving DecidableEq, Repr

/-! ### WFT, the Weft Unit (chapter 5) -/

/-- The states of a feeder (R76). -/
inductive FeederState | off | ready | suspended
  deriving DecidableEq, Repr

/-- A feeder (R76). -/
structure Feeder where
  state : FeederState
  mark : Bool
  failures : Nat
  faulted : Bool
  total : Nat
  deriving DecidableEq, Repr

/-- A colour group: its record (R80) and its alternation state. -/
structure Group where
  primary : Option (Fin 8)
  partner : Option (Fin 8)
  mode : GroupMode
  alternation : Alternation
  deriving DecidableEq, Repr

/-- The verdicts on a window (R88, R89). -/
inductive Verdict | commit | missing | fail | interrupted
  deriving DecidableEq, Repr

/-- The last verdict record (R88). -/
structure VerdictRecord where
  serial : Half
  verdict : Verdict
  feeder : Option (Fin 8)
  capture : Option Nat
  report : Option Insertion
  deriving DecidableEq, Repr

/-- The report record (R91). -/
structure Report where
  serial : Half
  outcome : Insertion
  deriving DecidableEq, Repr

/-- The state of the Weft Unit; no window is CLOSED. -/
structure Wft where
  feeders : Vector Feeder 8
  limit : Nat
  groups : Vector Group 8
  window : Option Half
  capture : Option Nat
  report : Option Report
  verdict : Option VerdictRecord
  extra : Nat
  stray : Nat
  withheld : Bool
  deriving DecidableEq, Repr

/-! ### HCC, the Hook Chain Controller (chapter 6) -/

/-- The latched-image record (R99). -/
inductive Latched
  | unknown
  | closed
  | pick (plan : Plan) (image : List Bool)
  deriving DecidableEq, Repr

/-- The transfer state with the serial of the pick carried (R98). -/
inductive Transfer
  | idle
  | shifting (serial : Half)
  | shifted (serial : Half)
  | taking (serial : Half)
  | refreshing
  deriving DecidableEq, Repr

/-- A module status record (R106), in the order of its codes. -/
inductive ModuleStatus | none | good | driverFault | supplyLow | overheat
  deriving DecidableEq, Repr

/-- The last compare record (R104); `compared` is false for SKIPPED. -/
structure CompareRecord where
  serial : Half
  compared : Bool
  mismatched : List Nat
  deriving DecidableEq, Repr

/-- The result of a hook test (R112). -/
inductive HookResult
  | passed
  | failed (module : Nat)
  | notRun
  deriving DecidableEq, Repr

/-- A bus activity with the transfer state IDLE (R98, R100, R112). -/
inductive BusTest | none | census | hookTest
  deriving DecidableEq, Repr

/-- The strobes of the hook bus (section 6.1). -/
inductive Strobe | take | drop
  deriving DecidableEq, Repr

/-- The state of the Hook Chain Controller. `holdsReleased` is the MODEL'S OWN (log 15): a RESET-SEQUENCER taken while
TAKING has released the holds of the staged pick and of the record it replaces (R143). -/
structure Hcc where
  census : Nat
  latched : Latched
  transfer : Transfer
  threshold : Nat
  budget : Nat
  echoErrors : Vector Nat 96
  status : Vector ModuleStatus 96
  faultLevel : Bool
  lastCompare : Option CompareRecord
  hookTest : Option HookResult
  dropHeld : Bool
  busTest : BusTest
  refreshClear : List Nat
  lastStrobe : Option Strobe
  holdsReleased : Bool
  deriving DecidableEq, Repr

/-! ### GRD, the Guard Unit (chapter 9) -/

/-- The entry record (R164 step 2). -/
structure EntryRecord where
  trigger : Trigger
  left : SeqState
  serial : Option Half
  angle : Nat
  halted : Bool
  deriving DecidableEq, Repr

/-- The state of the Guard Unit. -/
structure Grd where
  enabled : Vector Bool 13
  counts : Vector Bool 13
  totals : Vector Nat 13
  shed : Shed
  limit : Nat
  count : Nat
  autoClear : Half
  run : Nat
  causes : List Trigger
  entry : Option EntryRecord
  rawWarp : Bool
  warp : Bool
  filterTimer : Option Nat
  filterTime : Nat
  moduleLevel : Bool
  stopRequest : Bool
  deriving DecidableEq, Repr

/-! ### The link interfaces (chapter 10) -/

/-- The receiver of a link (R175). -/
inductive Receiver | hunting | receiving | discarding
  deriving DecidableEq, Repr

/-- The stage of an outstanding request (R177). -/
inductive ReqStage | atOwner | sending
  deriving DecidableEq, Repr

/-- An outstanding request (R177). -/
structure Outstanding where
  code : Byte
  stage : ReqStage
  deriving DecidableEq, Repr

/-- A response: its status and its payload (R189). -/
structure Response where
  status : Status
  payload : List Byte
  deriving DecidableEq, Repr

/-- The state of a link interface. -/
structure Link where
  rx : Receiver
  frame : Option Assembly
  outstanding : Option Outstanding
  response : Option Response
  suppressed : Bool
  errors : Nat
  notices : List NoticeKind
  droppedId : Option Half
  ignored : Option Trigger
  mask : List NoticeKind
  attention : Bool
  deriving DecidableEq, Repr

/-! ### The whole block -/

/-- Faults: none. The spec stops the part nowhere, so no command answers with one (INVENTORY.md, Faults). Safe. -/
inductive Fault
  deriving DecidableEq, Repr

/-- Refusals. -/
inductive Refusal
  /-- A command whose meaning is not modelled; raised by a refused arm of exec alone. Safe. -/
  | notModelled (mnemonic : String)
  deriving DecidableEq, Repr



/-- The state of the block, and the queue of the commands that wait. -/
structure State where
  ang : Ang
  fst : Fst
  wlb : Vector Weave 32
  hmp : Hmp
  xpe : Xpe
  seq : Seq
  chu : Chu
  wft : Wft
  hcc : Hcc
  grd : Grd
  plk : Link
  dlk : Link
  wlk : Link
  /-- MODEL'S OWN: how many free choices of order have been drawn (log 8). -/
  draws : Nat
  /-- MODEL'S OWN: the commands that wait, first in first out (log 1). -/
  pending : List Instr
  deriving DecidableEq, Repr

/-- The tracker after power-on reset (R16), with ENCZ as sampled at reset release. -/
def Ang.reset (encz : Bool) : Ang where
  count := 0
  index := .unindexed
  indexLevel := encz
  dir := .forward
  rest := .moving
  restAngle := 0
  reverseTravel := 0
  settleTimer := some 100
  stallWatch := .off
  stallTimer := none
  sched := ⟨40, 360, 520, 540, 620, 10, 20⟩
  armed := SchedAngle.all
  faultTotal := 0

/-- No reference (R37). -/
def Refs.zero : Refs := ⟨0, 0, 0, 0, 0⟩

/-- An EMPTY slot (R37). -/
def Slot.reset : Slot := ⟨.empty, none, [], none, false, Refs.zero⟩

/-- The store after power-on reset (R37). -/
def Fst.reset : Fst := ⟨Vector.replicate 8 Slot.reset, Vector.replicate 256 none, 256⟩

/-- A weave entry after power-on reset (R54). -/
def Weave.reset : Weave := ⟨1, 1, [false]⟩

/-- The map after power-on reset (R54). -/
def Hmp.reset : Hmp := ⟨Vector.replicate 16 none, []⟩

/-- XPE after power-on reset (R75). -/
def Xpe.reset : Xpe := ⟨none, .empty⟩

/-- SEQ after power-on reset (R75, R144). -/
def Seq.reset : Seq where
  state := .unloaded
  grant := .none
  coasting := false
  runDown := false
  cursor := none
  serial := 0
  present := none
  findWaiting := 0
  presentWaiting := false
  history := []
  woven := 0
  representOwed := .no

/-- A comparator after power-on reset (R159). -/
def Comparator.reset : Comparator := ⟨.off, 0, 0, false, false, 0⟩

/-- CHU after power-on reset (R159). -/
def Chu.reset : Chu := ⟨[], 0, Vector.replicate 4 Comparator.reset⟩

/-- A feeder after power-on reset (R96). -/
def Feeder.reset : Feeder := ⟨.off, false, 0, false, 0⟩

/-- A colour group after power-on reset (R96). -/
def Group.reset : Group := ⟨none, none, .single, .primaryNext⟩

/-- WFT after power-on reset (R96). -/
def Wft.reset : Wft where
  feeders := Vector.replicate 8 Feeder.reset
  limit := 3
  groups := Vector.replicate 8 Group.reset
  window := none
  capture := none
  report := none
  verdict := none
  extra := 0
  stray := 0
  withheld := false

/-- HCC after power-on reset: the record is UNKNOWN at reset release, then CLOSED by the one DROP-ALL sent (R117). -/
def Hcc.reset : Hcc where
  census := 0
  latched := .closed
  transfer := .idle
  threshold := 8
  budget := 8
  echoErrors := Vector.replicate 96 0
  status := Vector.replicate 96 .none
  faultLevel := false
  lastCompare := none
  hookTest := none
  dropHeld := false
  busTest := .none
  refreshClear := []
  lastStrobe := some .drop
  holdsReleased := false

/-- GRD after power-on reset (R160, R163, R174), with WSTOP as sampled at reset release. -/
def Grd.reset (wstop : Bool) : Grd where
  enabled := Vector.replicate 13 true
  counts := Vector.ofFn fun t => (Trigger.all.getD t.1 .historyEnd).countsDefault
  totals := Vector.replicate 13 0
  shed := .hold
  limit := 4
  count := 0
  autoClear := 1000
  run := 0
  causes := []
  entry := none
  rawWarp := wstop
  warp := false
  filterTimer := some 20
  filterTime := 20
  moduleLevel := false
  stopRequest := false

/-- A link interface after power-on reset (R188). -/
def Link.reset : Link where
  rx := .hunting
  frame := none
  outstanding := none
  response := none
  suppressed := false
  errors := 0
  notices := []
  droppedId := none
  ignored := none
  mask := []
  attention := false

/-- The block after power-on reset with ENCZ and WSTOP as sampled at reset release. -/
def State.powerOn (encz wstop : Bool) : State where
  ang := Ang.reset encz
  fst := Fst.reset
  wlb := Vector.replicate 32 Weave.reset
  hmp := Hmp.reset
  xpe := Xpe.reset
  seq := Seq.reset
  chu := Chu.reset
  wft := Wft.reset
  hcc := Hcc.reset
  grd := Grd.reset wstop
  plk := Link.reset
  dlk := Link.reset
  wlk := Link.reset
  draws := 0
  pending := []

/-- The machine right after reset; ENCZ and WSTOP are sampled inactive: DESIGN CHOICE (log 5). -/
def State.reset : State := State.powerOn false false

end Sys2Proof.Machine
end

