-- ==== Sys2Proof/Machine/Flags.lean ====
section
/-! DEFINITION. Counters, notices with their attention lines (R185), trigger totals and hold reasons (R30): the small
updates every other operation is built from. -/

namespace Sys2Proof.Machine

/-! ### Links and notices -/

/-- The interface of a link. -/
def State.link (s : State) : LinkId → Link
  | .p => s.plk
  | .d => s.dlk
  | .w => s.wlk

/-- The state with one link interface changed. "The three interfaces share no state" (chapter 10). -/
def State.modLink (s : State) (l : LinkId) (f : Link → Link) : State :=
  match l with
  | .p => { s with plk := f s.plk }
  | .d => { s with dlk := f s.dlk }
  | .w => { s with wlk := f s.wlk }

/-- R185: the line is asserted while the set holds at least one kind that is not in the mask. -/
def attentionOf (notices mask : List NoticeKind) : Bool := notices.any fun k => decide (k ∉ mask)

/-- A link interface with the set of notices replaced, and the attention line set in the same step (R185). -/
def Link.setNotices (k : Link) (notices : List NoticeKind) : Link :=
  { k with notices := notices, attention := attentionOf notices k.mask }

/-- The set of notices with one kind joined; a kind already in it stays in it once (R185). Kept by rising code. -/
def joinKind (k : NoticeKind) (set : List NoticeKind) : List NoticeKind :=
  NoticeKind.all.filter fun x => decide (x = k ∨ x ∈ set)

/-- R185: a notice raised on a link joins that link's notice set, masked or not. -/
def Link.raise (n : NoticeKind) (k : Link) : Link := k.setNotices (joinKind n k.notices)

/-- A notice raised on a link (R185). -/
def raise (l : LinkId) (n : NoticeKind) (s : State) : State := s.modLink l (Link.raise n)

/-- CHANGE-DROPPED on the P-link; the later id replaces the detail (R155, R185). -/
def raiseDropped (id : Half) (s : State) : State :=
  raise .p .changeDropped (s.modLink .p fun k => { k with droppedId := some id })

/-- TRIGGER-IGNORED on the P-link; the later name replaces the detail (R161, R185). -/
def raiseIgnored (t : Trigger) (s : State) : State :=
  raise .p .triggerIgnored (s.modLink .p fun k => { k with ignored := some t })

/-- The link error counter raised by one, saturating (R180). -/
def Link.countError (k : Link) : Link := { k with errors := raiseTo 65535 k.errors }

/-! ### Triggers -/

/-- The occurrence total of a trigger raised by one, saturating (R160). -/
def countTrigger (t : Trigger) (s : State) : State :=
  { s with grd := { s.grd with totals := upd s.grd.totals t.idx (raiseTo 65535 (s.grd.totals.get t.idx)) } }

/-- A trigger is ENABLED (R160). -/
def Grd.isEnabled (g : Grd) (t : Trigger) : Bool := g.enabled.get t.idx

/-- The cause set with a trigger joined, each present at most once (R166). Kept by rising code. -/
def joinCause (t : Trigger) (set : List Trigger) : List Trigger :=
  Trigger.all.filter fun x => decide (x = t ∨ x ∈ set)

/-- R162: a level cause is active when its level is active and its trigger is ENABLED. -/
def Grd.levelCause (g : Grd) : Bool :=
  (g.warp && g.isEnabled .warpStop) || (g.moduleLevel && g.isEnabled .moduleFault)

/-! ### Holds -/

/-- A reference count changed by `f`. -/
def Refs.modify (f : Nat → Nat) (r : Refs) : HoldReason → Refs
  | .cursor => { r with cursor := f r.cursor }
  | .staged => { r with staged := f r.staged }
  | .latched => { r with latched := f r.latched }
  | .history => { r with history := f r.history }
  | .queue => { r with queue := f r.queue }

/-- A slot is held while any of its five counts is above 0 (section 2.7). -/
def Slot.held (s : Slot) : Bool :=
  0 < s.refs.cursor || 0 < s.refs.staged || 0 < s.refs.latched || 0 < s.refs.history || 0 < s.refs.queue

/-- A slot changed. -/
def Fst.modSlot (f : Fst) (i : Fin 8) (g : Slot → Slot) : Fst := { f with slots := upd f.slots i (g (f.slots.get i)) }

/-- R30: FST raises the count of the reason concerned for a claim. -/
def claim (r : HoldReason) (i : Fin 8) (s : State) : State :=
  { s with fst := s.fst.modSlot i fun x => { x with refs := x.refs.modify (· + 1) r } }

/-- R30: FST lowers the count of the reason concerned for a release; a count cannot fall below 0. -/
def release (r : HoldReason) (i : Fin 8) (s : State) : State :=
  { s with fst := s.fst.modSlot i fun x => { x with refs := x.refs.modify (· - 1) r } }

/-- A slot of the store. -/
def State.slot (s : State) (i : Fin 8) : Slot := s.fst.slots.get i

end Sys2Proof.Machine
end

