-- ==== Sys2Proof/Machine/Operands.lean ====
section
/-! DEFINITION. The layouts of what the part returns: fields low byte first (R189), codes and forms of R193, absent
fields of R192, the records of sections 11.2 and 11.4, and the response frame with its check (R190). Where the spec
fixes no order or form, log 24 and log 25 say what is done. -/

namespace Sys2Proof.Machine

/-! ### Fields -/

/-- A field of one byte. -/
def b8 (n : Nat) : List Byte := [BitVec.ofNat 8 n]

/-- A field of two bytes, low byte first (R189). -/
def b16 (n : Nat) : List Byte := [BitVec.ofNat 8 n, BitVec.ofNat 8 (n / 256)]

/-- A field of four bytes, low byte first (R189). -/
def b32 (n : Nat) : List Byte := b16 n ++ b16 (n / 65536)

/-- A flag or two-valued level: 1 for set, active or asserted (R193). -/
def bFlag (b : Bool) : List Byte := b8 (if b then 1 else 0)

/-- An optional field of one byte behind its presence byte (R193). -/
def opt8 : Option Nat → List Byte
  | none => b8 0 ++ b8 0
  | some n => b8 1 ++ b8 n

/-- An optional field of two bytes behind its presence byte (R193). -/
def opt16 : Option Nat → List Byte
  | none => b8 0 ++ b16 0
  | some n => b8 1 ++ b16 n

/-- A feeder or colour group field: 255 for NONE or absent (R192). -/
def bMember : Option (Fin 8) → List Byte
  | none => b8 255
  | some f => b8 f.1

/-- The number whose bits are the members named by `f` among 0 to `n` - 1 (R193). -/
def maskOf (n : Nat) (f : Nat → Bool) : Nat := (List.range n).foldl (fun a k => if f k then a + 2 ^ k else a) 0

/-- A list: a one-byte count and its members (R193), each written by `f`. -/
def bList {α : Type} (f : α → List Byte) (xs : List α) : List Byte := b8 xs.length ++ xs.flatMap f

/-- A set of notice kinds in four bytes (R193). -/
def bKinds (set : List NoticeKind) : List Byte :=
  b32 (maskOf 16 fun k => match NoticeKind.all[k]? with | some n => decide (n ∈ set) | none => false)

/-- A set of triggers in two bytes (R193). -/
def bTriggers (set : List Trigger) : List Byte :=
  b16 (maskOf 13 fun k => match Trigger.all[k]? with | some t => decide (t ∈ set) | none => false)

/-- Bits packed eight to a byte, bit 0 first, with padding bits 0 (R191, R192). -/
def bBits (bits : List Bool) : List Byte :=
  (List.range (ceilDiv bits.length 8)).map fun i => BitVec.ofNat 8 (maskOf 8 fun k => bits.getD (8 * i + k) false)

/-- Figure cells packed two to a byte, the first in bits 0 to 3 (section 11.2). -/
def bCells (cells : List (BitVec 4)) : List Byte :=
  (List.range (ceilDiv cells.length 2)).map fun i =>
    BitVec.ofNat 8 ((cells.getD (2 * i) 0).toNat + 16 * (cells.getD (2 * i + 1) 0).toNat)

/-! ### Codes of enumerated fields (R193) -/

/-- 0 P, 1 D, 2 W. -/
def linkCode : LinkId → Nat
  | .p => 0 | .d => 1 | .w => 2

/-- 0 UNLOADED to 7 HALTED (section 11.4). -/
def stateCode : SeqState → Nat
  | .unloaded => 0 | .presenting => 1 | .ready => 2 | .running => 3 | .stopping => 4 | .finding => 5
  | .guard => 6 | .halted => 7

/-- 0 NONE, 1 FORWARD, 2 FIND, 3 POSITION (section 11.4). -/
def grantCode : Grant → Nat
  | .none => 0 | .forward => 1 | .find => 2 | .position => 3

/-- 0 UNINDEXED, 1 INDEXED. -/
def indexCode : IndexState → Nat
  | .unindexed => 0 | .indexed => 1

/-- 0 FORWARD, 1 REVERSE. -/
def dirCode : Dir → Nat
  | .forward => 0 | .reverse => 1

/-- 0 MOVING, 1 AT-REST. -/
def restCode : RestState → Nat
  | .moving => 0 | .atRest => 1

/-- 0 EMPTY, 1 LOADING, 2 VALID. -/
def slotCode : SlotState → Nat
  | .empty => 0 | .loading => 1 | .valid => 2

/-- 0 EMPTY, 1 FILLING, 2 COMPLETE. -/
def stagingCode : Staging → Nat
  | .empty => 0 | .filling _ => 1 | .complete _ _ => 2

/-- 0 SCHEDULE, 1 PRESENT. -/
def kindCode : JobKind → Nat
  | .schedule => 0 | .present => 1

/-- 0 EXPANDING, 1 TRANSFERRING, 2 TAKING. -/
def stageCode : Stage → Nat
  | .expanding => 0 | .transferring => 1 | .taking => 2

/-- 0 OFF, 1 READY, 2 SUSPENDED. -/
def feederCode : FeederState → Nat
  | .off => 0 | .ready => 1 | .suspended => 2

/-- 0 SINGLE, 1 ALTERNATE. -/
def modeCode : GroupMode → Nat
  | .single => 0 | .alternate => 1

/-- 0 PRIMARY-NEXT, 1 PARTNER-NEXT. -/
def alternationCode : Alternation → Nat
  | .primaryNext => 0 | .partnerNext => 1

/-- 0 INSERTED, 1 YARN-BREAK, 2 TRANSFER-FAIL. -/
def insertionCode : Insertion → Nat
  | .inserted => 0 | .yarnBreak => 1 | .transferFail => 2

/-- 0 COMMIT, 1 MISSING, 2 FAIL, 3 INTERRUPTED. -/
def verdictCode : Verdict → Nat
  | .commit => 0 | .missing => 1 | .fail => 2 | .interrupted => 3

/-- 0 UNKNOWN, 1 CLOSED, 2 a pick. -/
def latchedCode : Latched → Nat
  | .unknown => 0 | .closed => 1 | .pick _ _ => 2

/-- 0 IDLE, 1 SHIFTING, 2 SHIFTED, 3 TAKING, 4 REFRESHING. -/
def transferCode : Transfer → Nat
  | .idle => 0 | .shifting _ => 1 | .shifted _ => 2 | .taking _ => 3 | .refreshing => 4

/-- 0 NONE, 1 GOOD, 2 DRIVER-FAULT, 3 SUPPLY-LOW, 4 OVERHEAT. -/
def moduleCode : ModuleStatus → Nat
  | .none => 0 | .good => 1 | .driverFault => 2 | .supplyLow => 3 | .overheat => 4

/-- 0 to 95 the module named, 96 NONE, 97 NOT-RUN, 255 absent. -/
def hookTestCode : Option HookResult → Nat
  | none => 255 | some (.failed m) => m | some .passed => 96 | some .notRun => 97

/-- 0 OFF, 1 MATCH, 2 ANY. -/
def compCode : CompMode → Nat
  | .off => 0 | .matching => 1 | .any => 2

/-- 0 HOLD, 1 CLOSE. -/
def shedCode : Shed → Nat
  | .hold => 0 | .close => 1

/-- 0 STRAIGHT, 1 POINT. -/
def tieCode : Tie → Nat
  | .straight => 0 | .point => 1

/-- 0 ASCENDING, 1 DESCENDING. -/
def tieDirCode : TieDir → Nat
  | .ascending => 0 | .descending => 1

/-- The kind of a condition (section 11.4). -/
def conditionKind : Condition → Nat
  | .nextPick => 0 | .atRepeatEnd => 1 | .atMark _ => 2 | .atCount _ => 3

/-- The argument of a condition, 0 when it has none (section 11.4). -/
def conditionArg : Condition → Nat
  | .nextPick => 0 | .atRepeatEnd => 0 | .atMark k => k | .atCount n => n

/-! ### What the units hand to the records -/

/-- The angle: the count reduced modulo 720 (chapter 1). Also while UNINDEXED (log 7). -/
def Ang.angle (a : Ang) : Nat := (a.count % 720).toNat

/-- The serial of a plan (R61). -/
def Plan.serial (p : Plan) : Half := p.cursor.serial

/-- The serial of a history entry (R130). -/
def HistEntry.serial (e : HistEntry) : Half := e.cursor.serial

/-- The plan in the staging buffer (R60). -/
def Staging.plan : Staging → Option Plan
  | .empty => none
  | .filling p => some p
  | .complete p _ => some p

/-- The plan of the latched-image record, when it is a pick (R99). -/
def Latched.plan : Latched → Option Plan
  | .unknown => none
  | .closed => none
  | .pick p _ => some p

/-- The serial of the pick carried (R98). -/
def Transfer.serial : Transfer → Option Half
  | .idle => none
  | .shifting n => some n
  | .shifted n => some n
  | .taking n => some n
  | .refreshing => none

/-! ### Records -/

/-- A condition: kind (1) and argument (2) (R193). -/
def bCondition (c : Condition) : List Byte := b8 (conditionKind c) ++ b16 (conditionArg c)

/-- The schedule (R15). -/
def bSchedule (c : Schedule) : List Byte :=
  b16 c.latch ++ b16 c.opening ++ b16 c.closing ++ b16 c.prep ++ b16 c.xfer ++ b8 c.settle ++ b8 c.stall

/-- A card record (section 11.2). -/
def bCard (r : CardRecord) : List Byte :=
  (match r.weft with | .feeder f => b8 f.1 | .colour g => b8 (g.1 + 16)) ++ [r.mark] ++
    b8 (r.pickRepeat + if r.void then 128 else 0)

/-- An effect map, one byte for each effect (section 11.2). -/
def bMap (m : Vector Nat 16) : List Byte := m.toList.flatMap b8

/-- A harness section in 13 bytes (R193). -/
def bSection : Option SectionRecord → List Byte
  | none => List.replicate 13 0
  | some (.figure f l t d c s w) =>
    b8 1 ++ b16 f ++ b16 l ++ b8 0 ++ b8 (tieCode t) ++ b8 (tieDirCode d) ++ b16 c ++ b16 s ++ b8 w
  | some (.fixed f l v w) => b8 2 ++ b16 f ++ b16 l ++ b8 v ++ b8 0 ++ b8 0 ++ b16 0 ++ b16 0 ++ b8 w
  | some (.down f l) => b8 3 ++ b16 f ++ b16 l ++ b8 0 ++ b8 0 ++ b8 0 ++ b16 0 ++ b16 0 ++ b8 0

/-- A cursor record: slot, card, repeat index, design pass, weft phase, serial (R55). -/
def bCursor (c : Cursor) : List Byte :=
  b8 c.slot.1 ++ b16 c.card ++ b8 c.rep ++ b16 c.pass.toNat ++ b16 c.phase.toNat ++ b16 c.serial.toNat

/-- A history entry in 25 bytes (section 11.4). -/
def bEntry (e : HistEntry) : List Byte :=
  b16 e.serial.toNat ++ b8 e.cursor.slot.1 ++ b16 e.cursor.card ++ b8 e.cursor.rep ++ b16 e.cursor.pass.toNat ++
  b16 e.cursor.phase.toNat ++ bMember e.feeder ++ bMember (e.group.map (·.group)) ++
  b8 ((if e.group.isSome then 1 else 0) +
      (match e.group with | some g => 2 * alternationCode g.before | none => 0) +
      (if e.echoMismatch then 4 else 0) + (if e.suspect then 8 else 0) +
      (if e.counted.isSome then 16 else 0) + (if e.applied.isSome then 32 else 0)) ++
  b8 (maskOf 4 fun k => e.hits.any fun h => h.1 = k) ++
  b16 (match e.counted with | some i => i.toNat | none => 0) ++
  (match e.applied with
    | some a => b16 a.id.toNat ++ b8 a.slot.1 ++ b16 a.card ++ bCondition a.condition ++ bFlag a.phaseReset
    | none => List.replicate 9 0)

/-- A weft plan record in five bytes; the marking is 0 LATCHED, 1 STAGED (section 11.4). -/
def bPlan (marking : Nat) (p : Plan) : List Byte :=
  b8 marking ++ b16 p.serial.toNat ++ bMember p.feeder ++ bMember (p.group.map (·.group))

/-- The latched-image record's kind, with serial, slot and card for a pick (R113, R183). -/
def bLatched (l : Latched) : List Byte :=
  b8 (latchedCode l) ++ opt16 (l.plan.map (·.serial.toNat)) ++ opt8 (l.plan.map (·.cursor.slot.1)) ++
    opt16 (l.plan.map (·.cursor.card))

/-- The fields of R113. -/
def modulesRecord (h : Hcc) : List Byte :=
  b8 h.census ++ bLatched h.latched ++ b8 (transferCode h.transfer) ++ opt16 (h.transfer.serial.map (·.toNat)) ++
  b8 h.budget ++ b8 h.threshold ++ bFlag h.faultLevel ++
  (match h.lastCompare with
    | none => b8 0 ++ b16 0 ++ b8 0 ++ b8 0
    | some c => b8 1 ++ b16 c.serial.toNat ++ b8 (if c.compared then 0 else 1) ++ bList b8 c.mismatched) ++
  b8 (hookTestCode h.hookTest) ++
  ((h.status.toList.zip h.echoErrors.toList).take h.census).flatMap fun m => b8 (moduleCode m.1) ++ b16 m.2

/-- The echo error counters with those named set to 0 (R113). -/
def clearErrors (named : List Nat) (v : Vector Nat 96) : Vector Nat 96 :=
  Vector.ofFn fun i => if i.1 ∈ named then 0 else v.get i

/-- One slot's entry of READ-STORE (R35, section 11.2). -/
def bSlot (s : Slot) : List Byte :=
  b8 (slotCode s.state) ++ opt16 (s.design.map (·.width)) ++ opt16 (s.design.map (·.height)) ++ b16 s.blocks.length ++
  opt16 s.nonVoid ++ b8 s.refs.cursor ++ b8 s.refs.staged ++ b8 s.refs.latched ++ b8 s.refs.history ++
  b8 s.refs.queue ++ (match s.state, s.design with | .valid, some d => bMap d.map | _, _ => [])

/-- READ-STORE (R35). -/
def storeRecord (f : Fst) : List Byte :=
  b16 f.free ++ f.owner.toList.flatMap (fun o => match o with | some i => b8 i.1 | none => [Config.freeOwner]) ++
    f.slots.toList.flatMap bSlot

/-- READ-HARNESS (R53): the sections, then the dead-hook list with its length. -/
def harnessRecord (h : Hmp) : List Byte := h.sections.toList.flatMap bSection ++ bList b16 h.dead

/-- One feeder of READ-WEFT (R95). -/
def bFeeder (f : Feeder) : List Byte :=
  b8 (feederCode f.state) ++ bFlag f.mark ++ b8 f.failures ++ bFlag f.faulted ++ b16 f.total

/-- One group of READ-WEFT (R95). -/
def bGroup (g : Group) : List Byte :=
  bMember g.primary ++ bMember g.partner ++ b8 (modeCode g.mode) ++ b8 (alternationCode g.alternation)

/-- The last verdict record (R88), behind its presence byte. -/
def bVerdict : Option VerdictRecord → List Byte
  | none => b8 0 ++ b16 0 ++ b8 0 ++ b8 0 ++ opt16 none ++ opt8 none
  | some v => b8 1 ++ b16 v.serial.toNat ++ b8 (verdictCode v.verdict) ++ bMember v.feeder ++ opt16 v.capture ++
      opt8 (v.report.map insertionCode)

/-- The window with its serial when OPEN (R95, R183). -/
def bWindow (w : Option Half) : List Byte := bFlag w.isSome ++ opt16 (w.map (·.toNat))

/-- READ-WEFT (R95). -/
def weftRecord (w : Wft) : List Byte :=
  w.feeders.toList.flatMap bFeeder ++ b8 w.limit ++ w.groups.toList.flatMap bGroup ++ bWindow w.window ++
  opt16 w.capture ++ bVerdict w.verdict ++ b16 w.extra ++ b16 w.stray ++ bFlag w.withheld

/-- A change entry of READ-CHANGES, every field of R145. -/
def bChange (c : Change) : List Byte :=
  b16 c.id.toNat ++ b8 c.slot.1 ++ b16 c.card ++ bCondition c.condition ++ opt16 c.remaining ++ bFlag c.phaseReset

/-- A comparator of READ-CHANGES (R158). -/
def bComparator (c : Comparator) : List Byte :=
  b8 (compCode c.mode) ++ [c.value] ++ [c.mask] ++ b8 ((if c.notice then 1 else 0) + if c.stop then 2 else 0) ++
    b16 c.hits

/-- READ-CHANGES (R158). -/
def changesRecord (c : Chu) : List Byte :=
  bList bChange c.queue ++ b16 c.nextId.toNat ++ c.comps.toList.flatMap bComparator

/-- The entry record (R164), behind its presence byte. -/
def bEntryRecord : Option EntryRecord → List Byte
  | none => b8 0 ++ b8 0 ++ b8 0 ++ opt16 none ++ b16 0 ++ b8 0
  | some e => b8 1 ++ b8 e.trigger.idx.1 ++ b8 (stateCode e.left) ++ opt16 (e.serial.map (·.toNat)) ++ b16 e.angle ++
      b8 (if e.halted then 7 else 6)

/-- READ-GUARD (R173), with the sequencer's coasting flag. -/
def guardRecord (g : Grd) (coasting : Bool) : List Byte :=
  Trigger.all.flatMap (fun t => bFlag (g.enabled.get t.idx) ++ bFlag (g.counts.get t.idx) ++ b16 (g.totals.get t.idx)) ++
  b8 (shedCode g.shed) ++ b8 g.limit ++ b16 g.autoClear.toNat ++ b8 g.filterTime ++ b8 g.count ++ b16 g.run ++
  bTriggers g.causes ++ bFlag g.moduleLevel ++ bFlag g.warp ++ bFlag g.rawWarp ++ bFlag g.warp ++ bFlag g.moduleLevel ++
  bFlag g.stopRequest ++ bFlag coasting ++ bEntryRecord g.entry

/-- READ-STATUS (R183): the fields of R15, R142, R74, then those of HCC, GRD, WFT and the links. The woven-pick counter
takes four bytes, as in READ-HISTORY (log 39). -/
def statusRecord (s : State) : List Byte :=
  b16 s.ang.angle ++ b8 (indexCode s.ang.index) ++ b8 (dirCode s.ang.dir) ++ b8 (restCode s.ang.rest) ++
  b16 s.ang.restAngle ++ b16 s.ang.faultTotal ++
  b8 (stateCode s.seq.state) ++ b8 (grantCode s.seq.grant) ++ bFlag s.seq.coasting ++ bFlag s.seq.runDown ++
  b8 s.seq.history.length ++ opt16 (s.seq.history.getLast?.map (·.serial.toNat)) ++ b32 s.seq.woven.toNat ++
  (match s.seq.cursor with | some c => b8 1 ++ bCursor c | none => List.replicate 11 0) ++ b16 s.seq.serial.toNat ++
  bFlag s.xpe.job.isSome ++ opt8 (s.xpe.job.map (kindCode ·.kind)) ++
  opt16 (s.xpe.job.map (·.snapshot.serial.toNat)) ++ b8 (stagingCode s.xpe.staging) ++
  opt16 (s.xpe.staging.plan.map (·.serial.toNat)) ++ opt8 (s.xpe.staging.plan.map (·.cursor.slot.1)) ++
  opt16 (s.xpe.staging.plan.map (·.cursor.card)) ++
  bMember (s.xpe.staging.plan.bind (·.feeder)) ++ opt8 (s.xpe.staging.plan.map fun p => if p.echoMismatch then 1 else 0) ++
  opt8 (s.seq.present.map (stageCode ·.stage)) ++ opt16 (s.seq.present.map (·.snapshot.serial.toNat)) ++
  b8 s.hcc.census ++ bLatched s.hcc.latched ++
  bFlag s.grd.stopRequest ++ b8 s.grd.count ++ b8 s.grd.limit ++ bTriggers s.grd.causes ++
  bWindow s.wft.window ++ bFlag s.wft.withheld ++
  b16 s.plk.errors ++ b16 s.dlk.errors ++ b16 s.wlk.errors ++ bFlag s.dlk.outstanding.isSome ++
  bFlag s.wlk.outstanding.isSome

/-- IDENTIFY (R182). The revision and the width of the field for 65,536 cells are free values (log 25). -/
def identifyRecord (l : LinkId) : List Byte :=
  b16 7240 ++ Config.revisionField ++ b8 (linkCode l) ++ b8 8 ++ b16 256 ++ Config.cellsField ++ b8 32 ++ b8 16 ++ b8 128 ++
  b8 96 ++ b8 128 ++ b8 8 ++ b8 8 ++ b8 64 ++ b8 4 ++ b8 4 ++ b16 4096

/-- READ-NOTICES (R186): the set, the details of the kinds that carry one (P-link alone), the mask, the error
counter. -/
def noticesRecord (l : LinkId) (k : Link) : List Byte :=
  bKinds k.notices ++
  (if l = .p then opt16 (k.droppedId.map (·.toNat)) ++ opt8 (k.ignored.map (·.idx.1)) else []) ++
  bKinds k.mask ++ b16 k.errors

/-- The response frame on the line: start character, status, payload length, payload and check (section 11.1,
R190). -/
def Response.frame (r : Response) : List Byte :=
  let body := r.status.code :: (b16 r.payload.length ++ r.payload)
  0xA5 :: (body ++ b16 (crc16 body).toNat)

end Sys2Proof.Machine
end

