-- ==== Sys2Proof/Machine/Links.lean ====
section
/-! DEFINITION. The part of a link interface that every request goes through: the outstanding request, the answer of an
owner, the response, the link's own refusals (R176 to R181). -/

namespace Sys2Proof.Machine

/-- R177, R179: an owner's answer becomes the response being sent; with response suppressed set it is dropped, and
the request is no longer outstanding. -/
def Link.answer (r : Response) (k : Link) : Link :=
  match k.outstanding with
  | none => k
  | some o =>
    if k.suppressed then { k with outstanding := none, response := none, suppressed := false }
    else { k with outstanding := some { o with stage := .sending }, response := some r }

/-- An owner's answer on a link. -/
def answer (l : LinkId) (r : Response) (s : State) : State := s.modLink l (Link.answer r)

/-- The link's own refusal FRAME-ERROR, which raises the link error counter (R176, R180). -/
def answerFrameError (l : LinkId) (s : State) : State :=
  answer l ⟨.frameError, []⟩ (s.modLink l Link.countError)

/-- What an owner returns when it takes a request: the answer at once, or later (R177). -/
inductive Reply
  | now (r : Response)
  | later
  deriving DecidableEq, Repr

/-- An accepted request with its payload. -/
def accept (s : State) (payload : List Byte) : State × Reply := (s, .now ⟨.ok, payload⟩)

/-- A refused request: no state changes (R181) and no payload (R190). -/
def refuse (s : State) (st : Status) : State × Reply := (s, .now ⟨st, []⟩)

/-- A request's frame has ended: the receiver hunts again, and the request is outstanding at its owner (R175,
R177). -/
def Link.take (code : Byte) (k : Link) : Link :=
  { k with rx := .hunting, frame := none, outstanding := some ⟨code, .atOwner⟩ }

/-- R175, R178: a start character in HUNTING begins a frame, or an overlapping frame while a request is outstanding. -/
def Link.startFrame (k : Link) : Link :=
  if k.outstanding = none then { k with rx := .receiving, frame := some ⟨[], false⟩ }
  else { k.countError with rx := .discarding, frame := some ⟨[], false⟩ }

/-- The receiver hunts again and the frame in assembly is gone. -/
def Link.endFrame (k : Link) : Link := { k with rx := .hunting, frame := none }

/-- Steps 2 and 3 of R176 and the owner, for a request that is now outstanding. -/
def serve (l : LinkId) (r : Request) (check : EncodingCheck) (owner : State → State × Reply) (s : State) : State :=
  if r.onLink l then
    match check with
    | .frameError => answerFrameError l s
    | .badArgument => answer l ⟨.badArgument, []⟩ s
    | .good =>
      match owner s with
      | (s', .now resp) => answer l resp s'
      | (s', .later) => s'
  else answer l ⟨.unknownRequest, []⟩ s

/-- The end of a good frame of request `r` on link `l` (log 11). While the receiver is DISCARDING, the frame is the
overlapping one and is dropped (R175); while a request is outstanding and the receiver is HUNTING, it
overlaps as a whole: counted, dropped, no response (R178). Otherwise it is served. -/
def request (l : LinkId) (r : Request) (check : EncodingCheck) (owner : State → State × Reply) (s : State) : State :=
  match (s.link l).rx, (s.link l).outstanding with
  | .discarding, _ => s.modLink l Link.endFrame
  | .hunting, some _ => s.modLink l Link.countError
  | .hunting, none => serve l r check owner (s.modLink l (Link.take r.code))
  | .receiving, _ => serve l r check owner (s.modLink l (Link.take r.code))

end Sys2Proof.Machine
end

