-- ==== Sys2Proof/Machine/Ops.lean ====
section
/-! DEFINITION. The reads every unit shares: the sparse contents of a design (R18, R20), the internal reads of FST
(R33, R34), the resolution of a hook and its lift (R38, R43 to R47, R63), the belonging of a pick to the cursor (R55,
R82), the plain advance (R58), and the choice of a feeder (R81, R83). -/

namespace Sys2Proof.Machine

/-! ### The contents of a design, in canonical sparse form (log 10) -/

/-- The entry at position `a`; an unlisted position reads as `d`. -/
def Memory.get {α : Type} (d : α) : List (Nat × α) → Nat → α
  | [], _ => d
  | (k, v) :: m, a => if k = a then v else Memory.get d m a

/-- Writes `v` at position `a` and keeps the canonical form: writing `d` removes the entry. -/
def Memory.put {α : Type} [DecidableEq α] (d : α) : List (Nat × α) → Nat → α → List (Nat × α)
  | [], a, v => if v = d then [] else [(a, v)]
  | (k, w) :: m, a, v =>
    if a < k then (if v = d then (k, w) :: m else (a, v) :: (k, w) :: m)
    else if a = k then (if v = d then m else (a, v) :: m)
    else (k, w) :: Memory.put d m a v

/-- Every listed position is at least `a`, positions rise strictly, and no listed value is `d`. -/
def Memory.wfFrom {α : Type} [DecidableEq α] (d : α) : Nat → List (Nat × α) → Bool
  | _, [] => true
  | a, (k, v) :: m => decide (a ≤ k) && decide (v ≠ d) && Memory.wfFrom d (k + 1) m

/-- The canonical form: positions rise strictly and no entry equals what an unlisted position reads as. -/
def Memory.wf {α : Type} [DecidableEq α] (d : α) (m : List (Nat × α)) : Bool := Memory.wfFrom d 0 m

/-! ### Designs -/

/-- R20: the position at which card `c` begins. -/
def Design.cardPos (d : Design) (c : Nat) : Nat := c * (d.width + 8)

/-- R20: the position of the cell of card `c` at column `j`. -/
def Design.cellPos (d : Design) (c j : Nat) : Nat := d.cardPos c + 8 + j

/-- R33, card read: the record of card `c`. -/
def Design.card (d : Design) (c : Nat) : CardRecord := Memory.get CardRecord.initial d.cards (d.cardPos c)

/-- R33, cell read: the effect at card `c` and column `j`. -/
def Design.cell (d : Design) (c j : Nat) : BitVec 4 := Memory.get 0 d.cells (d.cellPos c j)

/-- Card `c` with its record replaced as a whole (R24). -/
def Design.setCard (d : Design) (c : Nat) (r : CardRecord) : Design :=
  { d with cards := Memory.put CardRecord.initial d.cards (d.cardPos c) r }

/-- The cell of card `c` at column `j` replaced (R23). -/
def Design.setCell (d : Design) (c j : Nat) (v : BitVec 4) : Design :=
  { d with cells := Memory.put 0 d.cells (d.cellPos c j) v }

/-- R20: the storage blocks a design of width `w` and height `h` needs. -/
def blocksNeeded (w h : Nat) : Nat := ceilDiv (h * (w + 8)) Config.blockCells

/-- R20: where position `p` lies: the block, when the slot's list has that place, and the offset in it. -/
def Slot.place (s : Slot) (p : Nat) : Option Nat × Nat := (s.blocks[p / Config.blockCells]?, p % Config.blockCells)

/-- A card that is not void (R18). -/
def Design.nonVoid (d : Design) (c : Nat) : Bool := !(d.card c).void

/-- R26: how many cards of the design are not void. -/
def Design.nonVoidCount (d : Design) : Nat := (List.range d.height).countP d.nonVoid

/-- R26: the first non-void card. -/
def Design.firstNonVoid (d : Design) : Option Nat := (List.range d.height).find? d.nonVoid

/-- R34, forward resolution: the first non-void card among c, …, H−1, 0, …, c−1, and whether the search passed from
card H−1 to card 0. No card, in a design no VALID slot has: c itself (log 29). -/
def Design.forward (d : Design) (c : Nat) : Nat × Bool :=
  match (List.range' c (d.height - c)).find? d.nonVoid with
  | some k => (k, false)
  | none =>
    match (List.range c).find? d.nonVoid with
    | some k => (k, true)
    | none => (c, false)

/-- The design of a slot. -/
def State.design (s : State) (i : Fin 8) : Option Design := (s.slot i).design

/-- The card record a cursor record names (R33); the initial record in a slot without a design (log 29). -/
def State.cardOf (s : State) (c : Cursor) : CardRecord :=
  match s.design c.slot with
  | some d => d.card c.card
  | none => CardRecord.initial

/-! ### Weaves and the harness -/

/-- R38: the lift of a weave at end offset `e` and phase `p`. -/
def Weave.lift (w : Weave) (e p : Nat) : Bool := w.lifts.getD (p % w.height * w.width + e % w.width) false

/-- The weave entry a number names; an entry beyond the library reads as the power-on entry (log 29). -/
def State.weave (s : State) (v : Nat) : Weave :=
  match member 32 v with
  | some i => s.wlb.get i
  | none => Weave.reset

/-- The first hook of a section. -/
def firstHook : SectionRecord → Nat
  | .figure f _ _ _ _ _ _ => f
  | .fixed f _ _ _ => f
  | .down f _ => f

/-- The last hook of a section. -/
def lastHook : SectionRecord → Nat
  | .figure _ l _ _ _ _ _ => l
  | .fixed _ l _ _ => l
  | .down _ l => l

/-- R42: the section holds the hook. -/
def holdsHook (r : SectionRecord) (h : Nat) : Bool := decide (firstHook r ≤ h) && decide (h ≤ lastHook r)

/-- R43: the governing section, the lowest-numbered one that holds the hook. -/
def Hmp.governing (m : Hmp) (h : Nat) : Option SectionRecord :=
  m.sections.toList.findSome? fun r =>
    match r with
    | some x => if holdsHook x h then some x else none
    | none => none

/-- R44, R45: the step of a tie with span `span` at offset `i`. -/
def tieStep (t : Tie) (span i : Nat) : Nat :=
  match t with
  | .straight => i % span
  | .point =>
    let k := i % (2 * span - 2)
    if k < span then k else 2 * span - 2 - k

/-- R44, R45: the design column at offset `i` in a design of width `w`. -/
def designColumn (t : Tie) (d : TieDir) (start span w i : Nat) : Nat :=
  match d with
  | .ascending => (start + tieStep t span i) % w
  | .descending => (((start : Int) - (tieStep t span i : Int)) % (w : Int)).toNat

/-- R63: the lift of hook `h` for the pick of a cursor record. -/
def State.lift (s : State) (c : Cursor) (h : Nat) : Bool :=
  if h ∈ s.hmp.dead then false
  else
    match s.hmp.governing h with
    | none => false
    | some (.down _ _) => false
    | some (.fixed f _ v w) => (s.weave v).lift (h - f + w) c.phase.toNat
    | some (.figure f _ t d start span w) =>
      match s.design c.slot with
      | none => false
      | some g =>
        let e := g.cell c.card (designColumn t d start span g.width (h - f))
        (s.weave (g.map.get e.toFin)).lift (h - f + w) c.phase.toNat

/-- R62, R63: the image of a pick over the first `hooks` hooks. -/
def State.image (s : State) (c : Cursor) (hooks : Nat) : List Bool := (List.range hooks).map (s.lift c)

/-! ### Belonging to the cursor pick -/

/-- R82: the pending plan, the plan of the latched pick when that belongs to the cursor pick (R55). The record of a TAKE
that a RESET-SEQUENCER met belongs to no pick any more (R143, log 15). -/
def State.pendingPlan (s : State) : Option Plan :=
  match s.hcc.latched.plan with
  | some p => if s.hcc.holdsReleased = false ∧ s.seq.cursor = some p.cursor then some p else none
  | none => none

/-- R55: the latched pick belongs to the cursor pick. -/
def State.latchedBelongs (s : State) : Bool := s.pendingPlan.isSome

/-- The staged pick belongs to the cursor pick (R55). -/
def State.stagedBelongs (s : State) : Bool :=
  match s.xpe.staging.plan with
  | some p => decide (s.seq.cursor = some p.cursor)
  | none => false

/-- The latched-image record with its plan changed. -/
def Latched.modPlan (f : Plan → Plan) : Latched → Latched
  | .pick p i => .pick (f p) i
  | .unknown => .unknown
  | .closed => .closed

/-- The staging buffer with its plan changed. -/
def Staging.modPlan (f : Plan → Plan) : Staging → Staging
  | .filling p => .filling (f p)
  | .complete p i => .complete (f p) i
  | .empty => .empty

/-! ### The advance -/

/-- R58: the plain advance from a cursor record, and whether it is a wrapping advance. -/
def State.advance (s : State) (c : Cursor) : Cursor × Bool :=
  let next : Cursor := { c with phase := c.phase + 1, serial := c.serial + 1 }
  if c.rep + 1 < (s.cardOf c).pickRepeat then ({ next with rep := c.rep + 1 }, false)
  else
    match s.design c.slot with
    | none => ({ next with rep := 0 }, false)
    | some d =>
      let r := d.forward ((c.card + 1) % d.height)
      let wraps := decide (c.card + 1 = d.height) || r.2
      ({ next with card := r.1, rep := 0, pass := if wraps then c.pass + 1 else c.pass }, wraps)

/-! ### The choice of a feeder -/

/-- A feeder is READY (R76). -/
def Wft.isReady (w : Wft) (f : Fin 8) : Bool := decide ((w.feeders.get f).state = .ready)

/-- The group's alternation state set. -/
def Wft.setAlternation (w : Wft) (g : Fin 8) (a : Alternation) : Wft :=
  { w with groups := upd w.groups g { w.groups.get g with alternation := a } }

/-- What planning gives (R81): the feeder or NONE, the group with the state found, and WFT afterwards. -/
structure Choice where
  feeder : Option (Fin 8)
  group : Option PlannedGroup
  wft : Wft
  deriving DecidableEq, Repr

/-- R81: the feeder a group names, when it is READY. -/
def Wft.readyOf (w : Wft) (f : Option (Fin 8)) : Option (Fin 8) := f.filter w.isReady

/-- R81: WFT plans a pick from the weft field of its card. -/
def Wft.choose (w : Wft) : Weft → Choice
  | .feeder f => ⟨w.readyOf (some f), none, w⟩
  | .colour g =>
    let r := w.groups.get g
    let found := some ⟨g, r.alternation⟩
    if r.primary = none then ⟨none, found, w⟩
    else
      match w.readyOf r.primary, w.readyOf r.partner with
      | some p, some q =>
        match r.mode, r.alternation with
        | .single, _ => ⟨some p, found, w⟩
        | .alternate, .primaryNext => ⟨some p, found, w.setAlternation g .partnerNext⟩
        | .alternate, .partnerNext => ⟨some q, found, w.setAlternation g .primaryNext⟩
      | some p, none => ⟨some p, found, w⟩
      | none, some q => ⟨some q, found, w⟩
      | none, none => ⟨none, found, w⟩

/-- R83: a group's alternation state restored to what a plan or entry recorded; without a group nothing changes. -/
def Wft.restore (w : Wft) : Option PlannedGroup → Wft
  | none => w
  | some g => w.setAlternation g.group g.before

end Sys2Proof.Machine
end

