-- ==== Sys2Proof/Machine/Guarding.lean ====
section
/-! DEFINITION. What stops the weaving side: the discard of a staged pick (R72), the abandonment of a bus activity
(R107, R115), DROP-ALL (R111), guard entry (R139, R164, R165), the taking of a trigger (R161, R166) and unsanctioned
motion (R138). -/

namespace Sys2Proof.Machine

/-! ### The hook bus -/

/-- R30: the LATCHED release for the record it replaces, when that is a pick. -/
def releaseLatched (l : Latched) (s : State) : State :=
  match l.plan with
  | some p => release .latched p.cursor.slot s
  | none => s

/-- R113: the answer of a READ-MODULES, gathered before the named counters are cleared; `result` is the refresh result
of R115, absent for refresh NO (log 24). -/
def answerModules (result : List Byte) (clear : List Nat) (s : State) : State :=
  let t := answer .p ⟨.ok, modulesRecord s.hcc ++ result⟩ s
  { t with hcc := { t.hcc with echoErrors := clearErrors clear t.hcc.echoErrors } }

/-- R115: a refresh is abandoned: the state becomes IDLE and the request is answered ABANDONED (log 23). -/
def abandonRefresh (s : State) : State :=
  let t := answerModules (b8 1) s.hcc.refreshClear { s with hcc := { s.hcc with transfer := .idle } }
  { t with hcc := { t.hcc with refreshClear := [] } }

/-- R107, R165 column HOLD: the bus activity that a guard entry or a supersession finds is abandoned; a TAKE is not
withdrawn (R110). -/
def abandonTransfer (s : State) : State :=
  match s.hcc.transfer with
  | .idle => s
  | .taking _ => s
  | .refreshing => abandonRefresh s
  | .shifting _ => { s with hcc := { s.hcc with transfer := .idle } }
  | .shifted _ => { s with hcc := { s.hcc with transfer := .idle } }

/-- A refresh in progress is abandoned; any other activity goes on. -/
def endRefresh (s : State) : State := if s.hcc.transfer = .refreshing then abandonRefresh s else s

/-- R111: DROP-ALL. While TAKING it is held (R110). -/
def dropAll (s : State) : State :=
  match s.hcc.transfer with
  | .taking _ => { s with hcc := { s.hcc with dropHeld := true } }
  | _ =>
    let t := endRefresh s
    releaseLatched t.hcc.latched
      { t with hcc := { t.hcc with transfer := .idle, latched := .closed, lastStrobe := some .drop } }

/-! ### The staging buffer -/

/-- The transfer carries the pick of this plan and has not been latched (R98). -/
def Transfer.carries (t : Transfer) (p : Plan) : Bool := decide (t = .shifting p.serial) || decide (t = .shifted p.serial)

/-- R72: XPE abandons its job and discards the staged pick; the plan is handed back (R83), the STAGED hold released, and
a transfer of that pick abandoned (log 17). While TAKING the order is held and then finds nothing (R72, R110). -/
def discardStaging (s : State) : State :=
  match s.hcc.transfer with
  | .taking _ => s
  | t =>
    match s.xpe.staging with
    | .empty => { s with xpe := ⟨none, .empty⟩ }
    | .filling p =>
      release .staged p.cursor.slot { s with xpe := ⟨none, .empty⟩, wft := s.wft.restore p.group }
    | .complete p _ =>
      release .staged p.cursor.slot
        { s with xpe := ⟨none, .empty⟩, wft := s.wft.restore p.group,
                 hcc := { s.hcc with transfer := if t.carries p then .idle else t } }

/-! ### Guard entry -/

/-- R164 step 1: the entry is to HALTED. -/
def Grd.entersHalted (g : Grd) (t : Trigger) : Bool :=
  g.counts.get t.idx && decide (0 < g.limit) && decide (g.limit ≤ g.count)

/-- R164 step 1: the guard count after an entry. -/
def Grd.countAfter (g : Grd) (t : Trigger) : Nat :=
  if g.counts.get t.idx = true ∧ g.entersHalted t = false then raiseTo 15 g.count else g.count

/-- R164 steps 1 and 2: the count, the cause set, the entry record and the run counter. -/
def recordEntry (t : Trigger) (s : State) : State :=
  { s with grd := { s.grd with
      count := s.grd.countAfter t
      causes := joinCause t s.grd.causes
      entry := some ⟨t, s.seq.state, s.seq.cursor.map (·.serial), s.ang.angle, s.grd.entersHalted t⟩
      run := 0 } }

/-- R90: the window is closed without a verdict, capture and report are discarded, the plan is withheld. -/
def interruptWindow (s : State) : State :=
  { s with wft := { s.wft with window := none, capture := none, report := none, withheld := true } }

/-- R13: the stall watch goes off and its timer stops. -/
def stallOff (s : State) : State := { s with ang := { s.ang with stallWatch := .off, stallTimer := none } }

/-- READY-CHANGED on the D-link when the state left is READY (R118). -/
def departed (left : SeqState) (s : State) : State := if left = .ready then raise .d .readyChanged s else s

/-- R139: SEQ's part of a guard entry, and the assertion of the stop request in the same step (R164 step 7, R167). A
find step and a PRESENT order that wait for a TAKE completion are dropped (log 16). -/
def seqIntoGuard (halted : Bool) (s : State) : State :=
  departed s.seq.state (stallOff
    { s with
      seq := { s.seq with
        state := if halted then .halted else .guard
        grant := .none
        coasting := true
        present := none
        findWaiting := 0
        presentWaiting := false }
      grd := { s.grd with stopRequest := true } })

/-- R164 step 8: the notices of a guard entry. -/
def entryNotices (halted : Bool) (s : State) : State :=
  raise .w .planChanged (raise .w .guardEntered
    (if halted then raise .d .halted (raise .p .halted s)
      else raise .d .guardEntered (raise .p .guardEntered s)))

/-- R165: HCC acts as the guard shed gives. -/
def shedHooks (s : State) : State :=
  match s.grd.shed with
  | .hold => abandonTransfer s
  | .close => dropAll s

/-- R164: a guard entry. -/
def guardEntry (t : Trigger) (s : State) : State :=
  let halted := s.grd.entersHalted t
  entryNotices halted (seqIntoGuard halted (shedHooks (discardStaging (interruptWindow (recordEntry t s)))))

/-! ### Taking a trigger -/

/-- R166: an enabled trigger taken in guard joins the cause set. -/
def addCause (t : Trigger) (s : State) : State := { s with grd := { s.grd with causes := joinCause t s.grd.causes } }

/-- R160, R161: GRD takes a trigger by the sequencer state it finds. -/
def trigger (t : Trigger) (s : State) : State :=
  let s := countTrigger t s
  match s.seq.state with
  | .unloaded => s
  | .guard => if s.grd.isEnabled t then addCause t s else raiseIgnored t s
  | .halted => if s.grd.isEnabled t then addCause t s else raiseIgnored t s
  | .presenting => if s.grd.isEnabled t then guardEntry t s else raiseIgnored t s
  | .ready => if s.grd.isEnabled t then guardEntry t s else raiseIgnored t s
  | .running => if s.grd.isEnabled t then guardEntry t s else raiseIgnored t s
  | .stopping => if s.grd.isEnabled t then guardEntry t s else raiseIgnored t s
  | .finding => if s.grd.isEnabled t then guardEntry t s else raiseIgnored t s

/-- A trigger taken when the condition holds. -/
def triggerWhen (c : Bool) (t : Trigger) (s : State) : State := if c then trigger t s else s

/-- R138: a detection of unsanctioned motion. In UNLOADED the notice only (log 26). -/
def unsanctioned (s : State) : State :=
  let s := raise .p .unsanctionedMotion s
  if s.seq.state = .unloaded then s else trigger .unsanctionedMotion s

end Sys2Proof.Machine
end

