-- ==== Sys2Proof/Machine/Planning.lean ====
section
/-! DEFINITION. Re-planning and filling (R84, R85), the fresh plan of SET-GROUP (R80), the changes of a feeder's state
(R76 to R79) and the accounting of verdicts (R93). -/

namespace Sys2Proof.Machine

/-- A plan with a new choice; serial, cursor record, card mark, completeness and echo mismatch are kept (R84). -/
def Plan.withChoice (p : Plan) (c : Choice) : Plan := { p with feeder := c.feeder, group := c.group }

/-- Two plans name the same colour group. -/
def sameGroup (p q : Plan) : Bool :=
  match p.group, q.group with
  | some a, some b => decide (a.group = b.group)
  | _, _ => false

/-- R84: the pending plan planned again; `back` restores its group first. -/
def replanPending (back : Bool) (s : State) : State :=
  match s.pendingPlan with
  | none => s
  | some p =>
    let c := (if back then s.wft.restore p.group else s.wft).choose (s.cardOf p.cursor).weft
    { s with wft := c.wft, hcc := { s.hcc with latched := s.hcc.latched.modPlan (·.withChoice c) } }

/-- R84: the staged plan planned again; `back` restores its group first. -/
def replanStaged (back : Bool) (s : State) : State :=
  match s.xpe.staging.plan with
  | none => s
  | some p =>
    let c := (if back then s.wft.restore p.group else s.wft).choose (s.cardOf p.cursor).weft
    { s with wft := c.wft, xpe := { s.xpe with staging := s.xpe.staging.modPlan (·.withChoice c) } }

/-- A plan that is present and names NONE. -/
def planNone : Option Plan → Bool
  | some p => p.feeder.isNone
  | none => false

/-- A plan that is present and names this feeder. -/
def planNames (f : Fin 8) : Option Plan → Bool
  | some p => decide (p.feeder = some f)
  | none => false

/-- Both plans are present and name the same group (R84). -/
def State.plansShareGroup (s : State) : Bool :=
  match s.pendingPlan, s.xpe.staging.plan with
  | some p, some q => sameGroup p q
  | _, _ => false

/-- What follows a re-plan or a fill: PLAN-CHANGED on the W-link (R84, R85), READY-CHANGED on the D-link when the pending
plan changed between NONE and a feeder in READY (R118), FEEDER-UNAVAILABLE in RUNNING when a plan came out NONE (R81),
once for the event (log 14). `before` is whether the pending plan named NONE before. -/
def replanned (before pending staged : Bool) (s : State) : State :=
  let s := raise .w .planChanged s
  let s := if s.seq.state = .ready ∧ pending = true ∧ before ≠ planNone s.pendingPlan then raise .d .readyChanged s else s
  triggerWhen (decide (s.seq.state = .running) &&
    (pending && planNone s.pendingPlan || staged && planNone s.xpe.staging.plan)) .feederUnavailable s

/-- R84: the plans named are planned again, the pending plan first; when both name the same group it is restored to the
pending plan's recorded state alone. -/
def replan (pending staged : Bool) (s : State) : State :=
  if pending || staged then
    let shared := pending && s.plansShareGroup
    let before := planNone s.pendingPlan
    let s := if pending then replanPending true s else s
    let s := if staged then replanStaged (!shared) s else s
    replanned before pending staged s
  else s

/-- R84: the re-plan when feeder `f` leaves READY. -/
def replanFrom (f : Fin 8) (s : State) : State :=
  let pending := planNames f s.pendingPlan
  replan pending (planNames f s.xpe.staging.plan || pending && s.plansShareGroup) s

/-- R85: the fill when a feeder enters READY: each plan that names NONE is planned again. -/
def fillPlans (s : State) : State := replan (planNone s.pendingPlan) (planNone s.xpe.staging.plan) s

/-- R80: in READY, the pending plan that names the group is planned afresh under the new record. -/
def replanAfresh (g : Fin 8) (s : State) : State :=
  match s.pendingPlan with
  | some p =>
    if s.seq.state = .ready ∧ p.group.map (·.group) = some g then
      replanned (planNone s.pendingPlan) true false (replanPending false s)
    else s
  | none => s

/-! ### Feeders -/

/-- A feeder's record replaced. -/
def Wft.setFeeder (w : Wft) (i : Fin 8) (f : Feeder) : Wft := { w with feeders := upd w.feeders i f }

/-- Choice IN and report BACK (R77, R78). -/
def Feeder.goIn (f : Feeder) : Feeder :=
  match f.state with
  | .off => { f with state := if f.mark then .suspended else .ready }
  | .ready => f
  | .suspended => f

/-- Choice OUT and report OUT (R77, R78). -/
def Feeder.goOut (f : Feeder) : Feeder := { f with state := .off }

/-- R79: the mark cleared and the count 0; a SUSPENDED feeder goes to READY. -/
def Feeder.restored (f : Feeder) : Feeder :=
  { f with state := if f.state = .suspended then .ready else f.state, mark := false, failures := 0 }

/-- A feeder's record changes: FEEDER-STATE-CHANGED at each change of its state (R76), the re-plan when it leaves READY
(R84), the fill when it enters READY (R85). -/
def changeFeeder (i : Fin 8) (g : Feeder → Feeder) (s : State) : State :=
  let old := (s.wft.feeders.get i).state
  let new := (g (s.wft.feeders.get i)).state
  let s := { s with wft := s.wft.setFeeder i (g (s.wft.feeders.get i)) }
  if old = new then s
  else
    let s := raise .p .feederStateChanged s
    if old = .ready then replanFrom i s else if new = .ready then fillPlans s else s

/-! ### Accounting -/

/-- R93: a COMMIT returns the consecutive-failure count of the planned feeder to 0. -/
def accountCommit (f : Option (Fin 8)) (s : State) : State :=
  match f with
  | none => s
  | some i => { s with wft := s.wft.setFeeder i { s.wft.feeders.get i with failures := 0 } }

/-- R92, R93: the total failures rise by one and the FAULTED flag is set. -/
def Feeder.fail (f : Feeder) : Feeder := { f with total := raiseTo 65535 f.total, faulted := true }

/-- R93: the tallies of a failed verdict. -/
def Feeder.failVerdict (f : Feeder) : Feeder := { f.fail with failures := raiseTo 7 f.failures }

/-- R93: the feeder is suspended by this failure. -/
def Wft.suspends (w : Wft) (i : Fin 8) : Bool :=
  decide ((w.feeders.get i).state = .ready) && decide (w.limit ≤ raiseTo 7 (w.feeders.get i).failures)

/-- R93: a FAIL or MISSING accounted to the planned feeder, with the suspension and its re-plan. -/
def accountFailure (f : Option (Fin 8)) (s : State) : State :=
  match f with
  | none => s
  | some i =>
    let x := (s.wft.feeders.get i).failVerdict
    if s.wft.suspends i then
      replanFrom i (raise .p .feederStateChanged (raise .p .feederSuspended
        { s with wft := s.wft.setFeeder i { x with state := .suspended, mark := true } }))
    else { s with wft := s.wft.setFeeder i x }

end Sys2Proof.Machine
end

