-- ==== Sys2Proof/Machine/Presenting.lean ====
section
/-! DEFINITION. How a pick reaches the modules: job start (R62), the transfer and its completion (R102 to R106), the
TAKE (R109), the PRESENT job (R69 to R71), the entry into READY (R118) and guard exit (R140, R170). -/

namespace Sys2Proof.Machine

/-! ### Expansion -/

/-- R62: XPE starts a job for the cursor pick. A plan of NONE in RUNNING hands FEEDER-UNAVAILABLE to GRD (R81). -/
def startJob (k : JobKind) (s : State) : State :=
  match s.seq.cursor with
  | none => s
  | some c =>
    let r := s.cardOf c
    let ch := s.wft.choose r.weft
    let t := claim .staged c.slot
      { s with wft := ch.wft,
               xpe := ⟨some ⟨k, c, Config.hooksPerModule * s.hcc.census⟩, .filling ⟨c, ch.feeder, ch.group, r.mark, false, false⟩⟩ }
    triggerWhen (decide (t.seq.state = .running) && ch.feeder.isNone) .feederUnavailable t

/-- R65: the job in flight completes: the image is computed and the plan is complete. -/
def completeJob (j : Job) (s : State) : State :=
  match s.xpe.staging with
  | .filling p => { s with xpe := ⟨none, .complete { p with complete := true } (s.image j.snapshot j.hooks)⟩ }
  | .complete _ _ => { s with xpe := { s.xpe with job := none } }
  | .empty => { s with xpe := { s.xpe with job := none } }

/-! ### Transfers -/

/-- R104: the expected lift of hook `h`: every hook lowered for CLOSED, the image for a pick. -/
def Latched.expects (l : Latched) (h : Nat) : Bool :=
  match l with
  | .unknown => false
  | .closed => false
  | .pick _ i => i.getD h false

/-- The echoed lift of hook `h`; a hook no module echoed reads lowered (log 20). -/
def echoedLift (echo : List ModuleEcho) (h : Nat) : Bool :=
  match echo[h / Config.hooksPerModule]? with
  | some m => m.lifts.getD (h % Config.hooksPerModule) false
  | none => false

/-- R104: a comparison is made. -/
def Hcc.compares (h : Hcc) : Bool := decide (h.latched ≠ .unknown) && decide (h.census ≠ 0)

/-- R104: module `m` mismatches, leaving out the hooks of the dead-hook list. -/
def State.mismatches (s : State) (echo : List ModuleEcho) (m : Nat) : Bool :=
  (List.range Config.hooksPerModule).any fun j =>
    let h := Config.hooksPerModule * m + j
    decide (h ∉ s.hmp.dead) && (echoedLift echo h != s.hcc.latched.expects h)

/-- R104: the mismatched modules, ascending; none when no comparison is made. -/
def State.mismatched (s : State) (echo : List ModuleEcho) : List Nat :=
  if s.hcc.compares then (List.range s.hcc.census).filter (s.mismatches echo) else []

/-- R106: the status recorded for a status received; a code that is none of the four is recorded as DRIVER-FAULT. -/
def statusOf : EchoStatus → ModuleStatus
  | .good => .good
  | .driverFault => .driverFault
  | .supplyLow => .supplyLow
  | .overheat => .overheat
  | .other => .driverFault

/-- R106: the status record of every module of the chain replaced; a module that sent none counts as a code that is none
of the four (log 20). -/
def Hcc.recordStatuses (h : Hcc) (statuses : List EchoStatus) : Vector ModuleStatus 96 :=
  Vector.ofFn fun m => if m.1 < h.census then statusOf (statuses.getD m.1 .other) else h.status.get m

/-- R106: some module of the chain is not GOOD. -/
def Hcc.faulty (h : Hcc) : Bool := (h.status.toList.take h.census).any fun x => decide (x ≠ .good)

/-- R106: the statuses are recorded and the module fault level follows them. -/
def updateStatuses (statuses : List EchoStatus) (s : State) : State :=
  let h := { s.hcc with status := s.hcc.recordStatuses statuses }
  { s with hcc := { h with faultLevel := h.faulty } }

/-- R103 step 6, R106, R162: HCC reports the module fault level to GRD. -/
def reportLevel (s : State) : State := { s with grd := { s.grd with moduleLevel := s.hcc.faultLevel } }

/-- R103 step 2 and R114: the echo error counters of the mismatched modules raised by one. -/
def raiseErrors (bad : List Nat) (v : Vector Nat 96) : Vector Nat 96 :=
  Vector.ofFn fun m => if m.1 ∈ bad then raiseTo 65535 (v.get m) else v.get m

/-- R105: the echo budget is spent by this completion. -/
def Hcc.budgetSpent (h : Hcc) (bad : List Nat) : Bool := h.compares && !bad.isEmpty && decide (h.budget ≤ 1)

/-- R105: the echo budget after a completion. -/
def Hcc.budgetAfter (h : Hcc) (bad : List Nat) : Nat :=
  if h.compares then (if bad.isEmpty || h.budgetSpent bad then h.threshold else h.budget - 1) else h.budget

/-- R103 step 2: the echo mismatch flag set on the plan of the staged pick the transfer carries. -/
def Staging.flagMismatch (n : Half) (st : Staging) : Staging :=
  st.modPlan fun p => if p.serial = n then { p with echoMismatch := true } else p

/-- R103 steps 1 to 3: the comparison, the counters, the flag, the notice and the budget. -/
def compareEcho (n : Half) (echo : List ModuleEcho) (s : State) : State :=
  let bad := s.mismatched echo
  let t := { s with
    hcc := { s.hcc with
      lastCompare := some ⟨n, s.hcc.compares, bad⟩
      echoErrors := raiseErrors bad s.hcc.echoErrors
      budget := s.hcc.budgetAfter bad }
    xpe := { s.xpe with staging := if bad.isEmpty then s.xpe.staging else s.xpe.staging.flagMismatch n } }
  if bad.isEmpty then t else raise .p .echoMismatch t

/-- R103 steps 1 to 6: the transfer that carries serial `n` completes. -/
def transferResults (n : Half) (echo : List ModuleEcho) (s : State) : State :=
  let spent := s.hcc.budgetSpent (s.mismatched echo)
  let t := updateStatuses (echo.map (·.status)) (compareEcho n echo s)
  let faulty := t.hcc.faultLevel
  let t := { t with hcc := { t.hcc with transfer := .shifted n } }
  triggerWhen faulty .moduleFault (reportLevel (triggerWhen spent .echoBudget t))

/-- R109: HCC strobes HTAKE for the pick of serial `n`. -/
def orderTake (n : Half) (s : State) : State :=
  { s with hcc := { s.hcc with transfer := .taking n, lastStrobe := some .take } }

/-- R70, R103 step 7: SEQ takes the completion of the transfer of serial `n`, unless a guard entry has abandoned it: a
PRESENT job moves to TAKING and the TAKE is ordered; a scheduled transfer waits SHIFTED (R108). -/
def reportTransfer (n : Half) (s : State) : State :=
  if s.hcc.transfer = .shifted n then
    match s.seq.present with
    | some j =>
      if j.stage = .transferring then
        orderTake n { s with seq := { s.seq with present := some { j with stage := .taking } } }
      else s
    | none => s
  else s

/-- R98, R102: a transfer start. Only a COMPLETE staged pick is transferred; a refresh in flight is abandoned and a
transfer in flight overwritten; while TAKING nothing starts (log 18). With census 0 the completion is taken at once
(R102, log 19). -/
def startTransfer (s : State) : State :=
  match s.hcc.transfer, s.xpe.staging with
  | .taking _, _ => s
  | _, .complete p _ =>
    let t := endRefresh s
    let t := { t with hcc := { t.hcc with transfer := .shifting p.serial } }
    if t.hcc.census = 0 then reportTransfer p.serial (transferResults p.serial [] t) else t
  | _, .empty => s
  | _, .filling _ => s

/-! ### The PRESENT job -/

/-- R71, R134 step 1: a PRESENT job in flight is ended: its expansion or transfer is abandoned and its staged pick
discarded. -/
def endPresent (s : State) : State :=
  match s.seq.present with
  | none => s
  | some _ => discardStaging { s with seq := { s.seq with present := none } }

/-- The PRESENT job record set for the cursor pick. -/
def beginPresent (stage : Stage) (s : State) : State :=
  { s with seq := { s.seq with present := s.seq.cursor.map fun c => ⟨c, stage⟩ } }

/-- R69: the PRESENT job starts: it reuses a COMPLETE staged pick of the cursor pick, adopts a SCHEDULE job for it, or
expands anew after discarding what does not belong. -/
def presentCursor (s : State) : State :=
  match s.xpe.staging, s.xpe.job, s.stagedBelongs with
  | .complete _ _, _, true => startTransfer (beginPresent .transferring s)
  | .filling _, some ⟨.schedule, c, n⟩, true =>
    beginPresent .expanding { s with xpe := { s.xpe with job := some ⟨.present, c, n⟩ } }
  | _, _, _ => startJob .present (beginPresent .expanding (discardStaging s))

/-- R69, R71: SEQ orders a PRESENT job. While HCC is TAKING the order waits for the completion (R71, R110, log 16). -/
def orderPresent (s : State) : State :=
  match s.hcc.transfer with
  | .taking _ => { s with seq := { s.seq with presentWaiting := true } }
  | _ => presentCursor (endPresent s)

/-- R118: the entry into READY and its two effects; the plan withheld flag is cleared (R94). -/
def enterReady (s : State) : State :=
  raise .w .planChanged (raise .d .readyChanged
    { s with seq := { s.seq with state := .ready }, wft := { s.wft with withheld := false } })

/-- SEQ goes to PRESENTING and orders a PRESENT job. -/
def enterPresenting (s : State) : State := orderPresent { s with seq := { s.seq with state := .presenting } }

/-! ### Guard exit -/

/-- R140: the guard exit goes to READY: the latched pick belongs to the cursor pick. It does not while a DROP-ALL held
during a TAKE is about to make the record CLOSED (R110, R165). -/
def State.exitsReady (s : State) : Bool := s.latchedBelongs && !s.hcc.dropHeld

/-- R140, R170: the exit from guard, taken from GUARD or at CLEAR-HALT: SEQ takes READY or PRESENTING. -/
def guardExit (s : State) : State :=
  let t := raise .d .guardLeft (raise .p .guardLeft
    { s with grd := { s.grd with causes := [], stopRequest := false }, seq := { s.seq with coasting := false } })
  if t.exitsReady then enterReady t else enterPresenting t

/-- R170, R171: rest, coasting clear and no active level cause. -/
def State.mayExit (s : State) : Bool :=
  decide (s.ang.rest = .atRest) && !s.seq.coasting && !s.grd.levelCause

/-- R52, R118: SEQ leaves READY for PRESENTING with a PRESENT job for the cursor pick. -/
def represent (s : State) : State := departed s.seq.state (enterPresenting s)

/-- R52: "the cursor pick is presented again after guard exit": a guard exit that R140 has taken to READY is followed in the
same step by the presentation that a map write is still owed (log 40). -/
def presentOwed (s : State) : State :=
  if s.seq.state = .ready ∧ s.seq.representOwed ≠ .no then represent s else s

/-- R170: the exit check, with what R52 has follow the exit. -/
def exitCheck (s : State) : State :=
  if s.seq.state = .guard ∧ s.mayExit = true then presentOwed (guardExit s) else s

end Sys2Proof.Machine
end

