-- ==== Sys2Proof/Machine/Weaving.lean ====
section
/-! DEFINITION. What moves the pick program: the move of the cursor (R55 to R57, R73), the commit (R128, R151 to R154,
R168), the verdicts (R88, R89), the unwind and the find step (R134, R135, R155 to R157), the rest handling (R124, R132,
R136) and the completion of a TAKE (R109, R110, R126). -/

namespace Sys2Proof.Machine

/-! ### The cursor -/

/-- R30: the CURSOR release for the record replaced. -/
def releaseCursor (c : Option Cursor) (s : State) : State :=
  match c with
  | some x => release .cursor x.slot s
  | none => s

/-- R56, R57, R73: SEQ sets the cursor; the claim is taken before the release (R30), and a staged pick or job of another
pick is discarded. -/
def moveCursor (c : Cursor) (s : State) : State :=
  let old := s.seq.cursor
  let t := releaseCursor old
    { claim .cursor c.slot s with seq := { s.seq with cursor := some c, serial := c.serial } }
  if old = some c then t else discardStaging t

/-! ### The history (R129, R130) -/

/-- R30: the HISTORY claims of an entry, one for each naming. -/
def claimEntry (e : HistEntry) (s : State) : State :=
  let s := claim .history e.cursor.slot s
  match e.applied with
  | some a => claim .history a.slot s
  | none => s

/-- R30: the HISTORY releases of an entry, one for each naming. -/
def releaseEntry (e : HistEntry) (s : State) : State :=
  let s := release .history e.cursor.slot s
  match e.applied with
  | some a => release .history a.slot s
  | none => s

/-- R129: the releases of the entries that fall off the oldest end. -/
def releaseEntries (es : List HistEntry) (s : State) : State := es.foldl (fun s e => releaseEntry e s) s

/-- R129: an entry joins as the newest; of more than 64 the oldest leave. -/
def appendEntry (e : HistEntry) (s : State) : State :=
  let h := s.seq.history ++ [e]
  releaseEntries (h.take (h.length - 64))
    { claimEntry e s with seq := { s.seq with history := h.drop (h.length - 64) } }

/-! ### The Change Unit at a commit -/

/-- R150: the test of a mark. -/
def Comparator.test (c : Comparator) (m : BitVec 8) : Bool :=
  match c.mode with
  | .off => false
  | .matching => decide (m &&& c.mask = c.value &&& c.mask)
  | .any => decide (m &&& c.mask ≠ 0)

/-- R151: the comparators that hit on a pick; none is evaluated at a repeat index above 0. -/
def Chu.hitsOn (u : Chu) (p : Plan) : List (Fin 4) :=
  if p.cursor.rep = 0 then (List.finRange 4).filter fun k => (u.comps.get k).test p.mark else []

/-- R151: the hit counters of the comparators that hit raised by one. -/
def Chu.countHits (u : Chu) (hits : List (Fin 4)) : Chu :=
  { u with comps := Vector.ofFn fun k =>
      let c := u.comps.get k
      if k ∈ hits then { c with hits := raiseTo 65535 c.hits } else c }

/-- R157: the hit counters of the comparators of a mark-hit set lowered by one; a counter at 0 stays at 0. -/
def Chu.uncountHits (u : Chu) (hits : List (Fin 4)) : Chu :=
  { u with comps := Vector.ofFn fun k =>
      let c := u.comps.get k
      if k ∈ hits then { c with hits := c.hits - 1 } else c }

/-- R152: a head whose condition is AT-COUNT. -/
def Change.isCount (c : Change) : Bool :=
  match c.condition with
  | .atCount _ => true
  | .nextPick => false
  | .atRepeatEnd => false
  | .atMark _ => false

/-- R152: the head with its remaining count fallen by one, when its condition is AT-COUNT. -/
def Change.counted (c : Change) : Change :=
  if c.isCount then { c with remaining := c.remaining.map (· - 1) } else c

/-- R153: the head applies, given the hits of this commit and whether the plain advance wraps. -/
def Change.applies (c : Change) (hits : List (Fin 4)) (wraps : Bool) : Bool :=
  match c.condition with
  | .nextPick => true
  | .atRepeatEnd => wraps
  | .atMark k => hits.any fun h => h.1 = k
  | .atCount _ => decide (c.remaining = some 0)

/-- R154 step 1: the applied-change record of a change. -/
def Change.record (c : Change) : AppliedChange := ⟨c.id, c.slot, c.card, c.condition, c.phaseReset⟩

/-- R154 step 2: the cursor at the target of a change applied at the commit of the pick of cursor `n`. -/
def State.target (s : State) (c : Change) (n : Cursor) : Cursor where
  slot := c.slot
  card := (match s.design c.slot with | some d => (d.forward c.card).1 | none => c.card)
  rep := 0
  pass := 0
  phase := if c.phaseReset then 0 else n.phase + 1
  serial := n.serial + 1

/-- R168: GRD is told of a commit. With the auto-clear run 0 a run counter that stood above 0 when SET-GUARD set it so
stays as it is (log 38). -/
def Grd.commit (g : Grd) : Grd :=
  if g.autoClear = 0 then g
  else
    let r := raiseTo 65535 g.run
    if g.autoClear.toNat ≤ r then { g with count := 0, run := 0 } else { g with run := r }

/-- R30: the QUEUE release of a change that leaves the queue. -/
def releaseChange (c : Change) (s : State) : State := release .queue c.slot s

/-- R151, R154: the notices of CHU and the trigger of a commit. -/
def commitNotices (hits : List (Fin 4)) (applied : Bool) (s : State) : State :=
  let s := if hits.any (fun k => (s.chu.comps.get k).notice) then raise .p .markHit s else s
  let s := if applied then raise .p .changeApplied s else s
  triggerWhen (hits.any fun k => (s.chu.comps.get k).stop) .markStop s

/-- R128 step 1, R130: the history entry of a committed plan. -/
def entryOf (p : Plan) (hits : List (Fin 4)) (counted : Option Half) (applied : Option AppliedChange) : HistEntry :=
  ⟨p.cursor, p.feeder, p.group, hits, counted, applied, p.echoMismatch, false⟩

/-- What CHU decides at a commit (R152, R153): the head after its count, the id counted toward, and whether it
applies. -/
structure HeadOutcome where
  head : Option Change
  counted : Option Half
  applies : Bool
  deriving DecidableEq, Repr

/-- R152, R153: the head of the queue at a commit. -/
def headAt (q : List Change) (hits : List (Fin 4)) (wraps : Bool) : HeadOutcome :=
  match q with
  | [] => ⟨none, none, false⟩
  | c :: _ => ⟨some c.counted, if c.isCount then some c.id else none, c.counted.applies hits wraps⟩

/-- R152, R154: the queue after a commit. -/
def queueAfter (q : List Change) (o : HeadOutcome) : List Change :=
  match o.head with
  | none => q
  | some c => if o.applies then q.tail else c :: q.tail

/-- R128: the commit of the pick of plan `p`. -/
def commitPlan (p : Plan) (s : State) : State :=
  let hits := s.chu.hitsOn p
  let plain := s.advance p.cursor
  let o := headAt s.chu.queue hits plain.2
  let applied := if o.applies then o.head else none
  let s := appendEntry (entryOf p hits o.counted (applied.map (·.record))) s
  let s := { s with
    seq := { s.seq with woven := s.seq.woven + 1 }
    chu := { s.chu.countHits hits with queue := queueAfter s.chu.queue o } }
  let s :=
    match applied with
    | some c => releaseChange c (moveCursor (s.target c p.cursor) s)
    | none => moveCursor plain.1 s
  commitNotices hits applied.isSome { s with grd := s.grd.commit }

/-- R128: a COMMIT verdict commits the pending pick. -/
def commit (s : State) : State :=
  match s.pendingPlan with
  | some p => commitPlan p s
  | none => s

/-! ### Verdicts -/

/-- The outcome reported for a serial (R88). -/
def Wft.reportFor (w : Wft) (n : Half) : Option Insertion :=
  match w.report with
  | some r => if r.serial = n then some r.outcome else none
  | none => none

/-- R88: a failure outcome is on record for the serial. -/
def Wft.failureFor (w : Wft) (n : Half) : Bool := ((w.reportFor n).map (·.failure)).getD false

/-- The feeder the pending plan names. -/
def State.pendingFeeder (s : State) : Option (Fin 8) := s.pendingPlan.bind (·.feeder)

/-- R88, R89: the window is closed, the last verdict record written and the report record cleared. -/
def closeWindow (n : Half) (v : Verdict) (s : State) : State :=
  { s with wft := { s.wft with
      window := none, report := none,
      verdict := some ⟨n, v, s.pendingFeeder, s.wft.capture, s.wft.reportFor n⟩ } }

/-- R88, R93: a failed verdict: the trigger is handed to GRD before the accounting. -/
def failVerdict (n : Half) (v : Verdict) (t : Trigger) (s : State) : State :=
  accountFailure s.pendingFeeder (trigger t (closeWindow n v s))

/-- R88, R93: a COMMIT verdict: the accounting, then the commit. -/
def commitVerdict (n : Half) (s : State) : State := commit (accountCommit s.pendingFeeder (closeWindow n .commit s))

/-- R88: the verdict at A_close on the window of serial `n`. -/
def verdictAtClose (n : Half) (s : State) : State :=
  if s.wft.failureFor n then failVerdict n .fail .weftFail s
  else if s.wft.capture = none then failVerdict n .missing .weftMissing s
  else commitVerdict n s

/-- R89: the verdict at rest on the window of serial `n`. -/
def verdictAtRest (n : Half) (s : State) : State :=
  if s.wft.failureFor n then failVerdict n .fail .weftFail s
  else if s.wft.capture = none then
    raise .w .windowInterrupted (raise .p .windowInterrupted (closeWindow n .interrupted s))
  else commitVerdict n s

/-! ### Finding -/

/-- R155 step 2: the change entry made from an applied-change record. -/
def AppliedChange.restored (a : AppliedChange) : Change :=
  ⟨a.id, a.slot, a.card, a.condition, (match a.condition with | .atCount _ => some 0 | _ => none), a.phaseReset⟩

/-- R155 step 1: a full queue loses its tail. -/
def dropTail (s : State) : State :=
  if s.chu.queue.length < 4 then s
  else
    match s.chu.queue.getLast? with
    | some c => raiseDropped c.id (releaseChange c { s with chu := { s.chu with queue := s.chu.queue.dropLast } })
    | none => s

/-- R155: an applied change goes back to the head of the queue. -/
def restoreChange (a : AppliedChange) (s : State) : State :=
  let s := dropTail s
  let s := claim .queue a.slot { s with chu := { s.chu with queue := a.restored :: s.chu.queue } }
  raise .p .changeRestored s

/-- R156: the head with one count given back, but not past its original n. -/
def Change.giveBack (c : Change) : Change :=
  match c.condition with
  | .atCount n => { c with remaining := c.remaining.map (raiseTo n) }
  | _ => c

/-- R156: the count an entry gave to the change `i` goes back to a head of that id. -/
def giveBackCount (i : Half) (q : List Change) : List Change :=
  match q with
  | [] => []
  | c :: r => if c.id = i then c.giveBack :: r else c :: r

/-- R135 step 1: CHU's part of an unwind. -/
def unwindChanges (e : HistEntry) (s : State) : State :=
  let s := match e.applied with | some a => restoreChange a s | none => s
  let u := match e.counted with | some i => { s.chu with queue := giveBackCount i s.chu.queue } | none => s.chu
  { s with chu := u.uncountHits e.hits }

/-- R135: the unwind of the newest entry. -/
def unwind (e : HistEntry) (s : State) : State :=
  let s := unwindChanges e s
  let s := { s with seq := { s.seq with woven := s.seq.woven - 1 }, wft := s.wft.restore e.group }
  let s := moveCursor e.cursor s
  releaseEntry e { s with seq := { s.seq with history := s.seq.history.dropLast } }

/-- R134: a find step. While HCC is TAKING it waits for the completion. -/
def findStep (s : State) : State :=
  match s.hcc.transfer with
  | .taking _ => { s with seq := { s.seq with findWaiting := s.seq.findWaiting + 1 } }
  | _ =>
    let s := endPresent s
    match s.seq.history.getLast? with
    | none => trigger .historyEnd s
    | some e => orderPresent (unwind e s)

/-- R136: the check by which SEQ leaves FINDING. -/
def findExitCheck (s : State) : State :=
  if s.seq.state = .finding ∧ s.seq.grant = .none ∧ s.seq.runDown = false ∧ s.seq.present = none ∧
      s.seq.findWaiting = 0 then enterReady s
  else s

/-! ### Rest -/

/-- R132: rest in STOPPING. -/
def restStopping (s : State) : State :=
  let s := match s.wft.window with | some n => verdictAtRest n s | none => s
  if s.seq.state = .stopping then
    if s.latchedBelongs = true ∧ s.xpe = ⟨none, .empty⟩ then enterReady s else enterPresenting s
  else s

/-- R124: the rest handling, of REST-REACHED or of a STOP taken at rest. When it clears coasting, GRD makes the exit
check (R170). -/
def restHandling (fromStop : Bool) (s : State) : State :=
  let ran := s.seq.runDown
  let s := { s with seq := { s.seq with runDown := false } }
  match s.seq.state with
  | .stopping => restStopping s
  | .finding => findExitCheck s
  | .guard => if ran || fromStop then exitCheck { s with seq := { s.seq with coasting := false } } else s
  | .halted => if ran || fromStop then { s with seq := { s.seq with coasting := false } } else s
  | .unloaded => s
  | .presenting => s
  | .ready => s
  | .running => s

/-! ### The completion of a TAKE -/

/-- R52: what is still owed to a map write when a TAKE has latched a pick (log 40). -/
def Owed.taken : Owed → Owed
  | .no => .no
  | .nextTake => .no
  | .afterTake => .nextTake

/-- R70, R109: the latched-image record becomes the staged pick and the staging buffer becomes EMPTY; the claim is taken
before the releases (R30). A presentation owed to a map write has now been made, unless this TAKE is older than the write
(R52, log 40). -/
def latchStaged (s : State) : State :=
  let t := { s with hcc := { s.hcc with transfer := .idle } }
  match s.xpe.staging with
  | .complete p i =>
    release .staged p.cursor.slot (releaseLatched s.hcc.latched (claim .latched p.cursor.slot
      { t with
        hcc := { t.hcc with latched := .pick p i }
        xpe := { t.xpe with staging := .empty }
        seq := { t.seq with representOwed := t.seq.representOwed.taken } }))
  | .empty => t
  | .filling _ => t

/-- R110: a DROP-ALL held during the TAKE is taken. -/
def takeHeldDrop (s : State) : State :=
  if s.hcc.dropHeld then dropAll { s with hcc := { s.hcc with dropHeld := false } } else s

/-- R110, R143: the completion of a TAKE that RESET-SEQUENCER met: the held DROP-ALL follows it and the record is CLOSED.
The holds of both picks were released at the reset, so none is claimed or released here (log 15). -/
def closeReleased (s : State) : State :=
  { s with
    hcc := { s.hcc with
      transfer := .idle, latched := .closed, lastStrobe := some .drop, dropHeld := false, holdsReleased := false }
    xpe := ⟨none, .empty⟩ }

/-- R126: the PRESENT job whose TAKE completes is complete. -/
def finishPresent (s : State) : State :=
  match s.seq.present with
  | some j =>
    if j.stage = .taking then
      let t := raise .p .presentDone { s with seq := { s.seq with present := none } }
      if t.seq.state = .presenting then enterReady t else findExitCheck t
    else s
  | none => s

/-- R134 step 1: up to `n` find steps that waited for the TAKE completion go on, one after another, while the sequencer
is FINDING. -/
def takeFindSteps : Nat → State → State
  | 0, s => s
  | n + 1, s =>
    if s.seq.state = .finding ∧ 0 < s.seq.findWaiting then
      takeFindSteps n (findStep { s with seq := { s.seq with findWaiting := s.seq.findWaiting - 1 } })
    else s

/-- R71 third row, R110: a PRESENT order that waited for the TAKE completion is taken (log 16). -/
def takePresentOrder (s : State) : State :=
  if s.seq.presentWaiting then orderPresent { s with seq := { s.seq with presentWaiting := false } } else s

end Sys2Proof.Machine
end

