-- ==== Sys2Proof/Machine/Shaft.lean ====
section
/-! DEFINITION. The commands of the shaft and of the loom's lines: ENCODER_STEP, ENCODER_ERROR, the three timer expiries,
WSTOP_CHANGE, ARRIVAL_EDGE, POWER_ON_RESET, SET_SCHEDULE and READ_SCHEDULE (chapter 1, R86 to R88, R108, R137, R163). -/

namespace Sys2Proof.Machine

/-! ### Schedule events (R9) -/

/-- R108: A_latch. While TAKING or REFRESHING the transfer is late too (log 18). -/
def atLatch (s : State) : State :=
  if s.seq.state = .running then
    match s.xpe.staging, s.stagedBelongs with
    | .complete p _, true =>
      if s.hcc.transfer = .shifted p.serial then orderTake p.serial s else trigger .lateTransfer s
    | _, _ => trigger .lateTransfer s
  else s

/-- HCC is TAKING. -/
def Hcc.isTaking (h : Hcc) : Bool :=
  match h.transfer with
  | .taking _ => true
  | .idle => false
  | .shifting _ => false
  | .shifted _ => false
  | .refreshing => false

/-- R86: A_open. -/
def atOpen (s : State) : State :=
  if s.seq.state = .running ∨ s.seq.state = .stopping then
    if s.hcc.isTaking then trigger .lateTransfer { s with wft := { s.wft with window := none } }
    else
      match s.pendingPlan with
      | some p => { s with wft := { s.wft with window := some p.serial, capture := none, report := none } }
      | none => { s with wft := { s.wft with window := none } }
  else { s with wft := { s.wft with window := none } }

/-- R88: A_close. -/
def atClose (s : State) : State :=
  match s.wft.window with
  | some n => if s.seq.state = .running ∨ s.seq.state = .stopping then verdictAtClose n s else s
  | none => s

/-- A job in flight for the cursor pick (R66). -/
def State.jobBelongs (s : State) : Bool :=
  match s.xpe.job with
  | some j => decide (s.seq.cursor = some j.snapshot)
  | none => false

/-- R66: A_prep. While TAKING no job starts (log 18). -/
def atPrep (s : State) : State :=
  if s.seq.state = .running ∧ s.stagedBelongs = false ∧ s.jobBelongs = false ∧ s.hcc.isTaking = false then
    startJob .schedule (discardStaging s)
  else s

/-- R67: A_xfer. -/
def atXfer (s : State) : State :=
  if s.seq.state = .running then
    match s.xpe.staging, s.stagedBelongs with
    | .complete _ _, true => startTransfer s
    | _, _ => trigger .latePick s
  else s

/-- R9: the event of a schedule angle at its receiving block. -/
def scheduleEvent (a : SchedAngle) (s : State) : State :=
  match a with
  | .latch => atLatch s
  | .opening => atOpen s
  | .closing => atClose s
  | .prep => atPrep s
  | .xfer => atXfer s

/-! ### What a step of the shaft raises, in order -/

/-- The actions of an encoder step. -/
inductive ShaftAction
  /-- R6: ANGLE-FAULT. -/
  | angleFault
  /-- R8: a schedule angle leaves the armed set and its event is raised. -/
  | fire (a : SchedAngle)
  /-- The count, the index state and the armed set after the step. -/
  | place (count : Int) (index : IndexState) (armed : List SchedAngle)
  /-- R3, R4: an index crossing is raised to SEQ. -/
  | crossing (d : Dir)
  /-- R10: MOTION-STARTED. -/
  | motionStarted
  /-- R11: REVERSE-TRAVEL. -/
  | reverseTravel
  deriving DecidableEq, Repr

/-- R2: the step is an index crossing. -/
def Ang.crosses (a : Ang) (d : Dir) (encz : Bool) : Bool :=
  match d with
  | .forward => !a.indexLevel && encz
  | .reverse => a.indexLevel && !encz

/-- R3, R4: the crossing is checked against the count held before the step, and is out of tolerance. -/
def Ang.offMark (a : Ang) (d : Dir) : Bool :=
  decide (a.index = .indexed) &&
    match d with
    | .forward => decide (a.count < 717 ∨ 721 < a.count)
    | .reverse => decide (a.count < -2 ∨ 2 < a.count)

/-- R8: the angles in the armed set that satisfy a condition on their value, in schedule order. -/
def Ang.armedWhere (a : Ang) (f : Int → Bool) : List SchedAngle :=
  SchedAngle.all.filter fun x => decide (x ∈ a.armed) && f (a.sched.angle x)

/-- R3, R8: what a forward index crossing brings. -/
def Ang.forwardCrossing (a : Ang) : List ShaftAction :=
  (if a.offMark .forward then [.angleFault]
    else if a.index = .indexed then (a.armedWhere fun x => decide (a.count < x)).map .fire
    else []) ++
    [.place 0 .indexed SchedAngle.all, .crossing .forward]

/-- R4: what a reverse index crossing brings; the armed set stays as it was. -/
def Ang.reverseCrossing (a : Ang) : List ShaftAction :=
  (if a.offMark .reverse then [.angleFault] else []) ++ [.place 719 .indexed a.armed, .crossing .reverse]

/-- R1, R5, R8: an ordinary forward step. -/
def Ang.forwardStep (a : Ang) : List ShaftAction :=
  let n := a.count + 1
  if a.index = .unindexed then [.place (n % 720) .unindexed a.armed]
  else if 721 < n then [.place (n % 720) .unindexed a.armed, .angleFault]
  else .place n .indexed a.armed :: (a.armedWhere fun x => decide (x = n)).map .fire

/-- R8: the armed set after a reverse step to count `n`: an angle three or more units above it rejoins. -/
def Ang.rearmed (a : Ang) (n : Int) : List SchedAngle :=
  SchedAngle.all.filter fun x => decide (x ∈ a.armed) || decide (n ≤ (a.sched.angle x : Int) - 3)

/-- R1, R5, R8: an ordinary reverse step (log 9). -/
def Ang.reverseStep (a : Ang) : List ShaftAction :=
  let n := a.count - 1
  if a.index = .unindexed then [.place (n % 720) .unindexed (a.rearmed (n % 720))]
  else if n < -2 then [.place (n % 720) .unindexed (a.rearmed (n % 720)), .angleFault]
  else [.place n .indexed (a.rearmed n)]

/-- The actions of a step that the rules order (R3 to R6, R8). -/
def Ang.ordered (a : Ang) (d : Dir) (encz : Bool) : List ShaftAction :=
  match d, a.crosses d encz with
  | .forward, true => a.forwardCrossing
  | .forward, false => a.forwardStep
  | .reverse, true => a.reverseCrossing
  | .reverse, false => a.reverseStep

/-- The count after the actions of a step. -/
def countAfter (c : Int) (l : List ShaftAction) : Int :=
  l.foldl (fun c x => match x with | .place n _ _ => n | _ => c) c

/-- R10: the distance of two angles around the circle. -/
def angleDistance (x y : Nat) : Nat :=
  let d := if x ≤ y then y - x else x - y
  min d (720 - d)

/-- R10: the shaft leaves AT-REST at this step, which takes the count to `n`. -/
def Ang.startsMotion (a : Ang) (n : Int) : Bool :=
  decide (a.rest = .atRest) && decide (3 ≤ angleDistance (n % 720).toNat a.restAngle)

/-- R11: the reverse travel reaches 3 at this step. -/
def Ang.reachesReverse (a : Ang) (d : Dir) : Bool := decide (d = .reverse) && decide (a.reverseTravel = 2)

/-- R11: the reverse travel after a step. -/
def travelAfter (d : Dir) (r : Nat) : Nat :=
  match d with
  | .forward => r - 1
  | .reverse => raiseTo 3 r

/-- R13: the stall watch at a step: an armed timer restarts, an expired watch is armed again. -/
def Ang.stallStep (a : Ang) : Ang :=
  match a.stallWatch with
  | .off => a
  | .armed => { a with stallTimer := some (10 * a.sched.stall) }
  | .expired => { a with stallWatch := .armed, stallTimer := some (10 * a.sched.stall) }

/-- R1, R2, R10, R11, R13: what a step to count `n` changes in the tracker besides the count: direction, index level,
settle timer and rest state, reverse travel, stall watch. -/
def Ang.moved (a : Ang) (d : Dir) (encz : Bool) (n : Int) : Ang :=
  let runs := decide (a.rest = .moving) || a.startsMotion n
  { a.stallStep with
    dir := d
    indexLevel := encz
    rest := if runs then .moving else .atRest
    settleTimer := if runs then some (10 * a.sched.settle) else a.settleTimer
    reverseTravel := travelAfter d a.reverseTravel }

/-- The action that moves the count. -/
def ShaftAction.isPlace : ShaftAction → Bool
  | .place _ _ _ => true
  | .angleFault => false
  | .fire _ => false
  | .crossing _ => false
  | .motionStarted => false
  | .reverseTravel => false

/-- FREE ORDER (log 8): the action `x` inserted at a place that no rule gives among the actions that come after the count
has moved. That it comes after the count is R10's for MOTION-STARTED ("a step after which the angle lies") and the
model's choice for REVERSE-TRAVEL (log 8). -/
def placeFreely (x : ShaftAction) (present : Bool) (r : List ShaftAction × Nat) : List ShaftAction × Nat :=
  if present then
    let i := r.1.findIdx ShaftAction.isPlace + 1
    let k := i + Config.eventPlace r.2 % (r.1.length - i + 1)
    (r.1.take k ++ x :: r.1.drop k, r.2 + 1)
  else r

/-- R6: ANGLE-FAULT raises the angle-fault total and is handed to GRD. -/
def raiseAngleFault (s : State) : State :=
  trigger .angleFault { s with ang := { s.ang with faultTotal := raiseTo 65535 s.ang.faultTotal } }

/-- R127, R133, R134, R137: an index crossing at SEQ. -/
def indexCrossing (d : Dir) (s : State) : State :=
  match d with
  | .forward => if s.seq.state = .finding ∧ s.seq.grant = .find then unsanctioned s else s
  | .reverse => if s.seq.state = .finding then findStep s else s

/-- R137: MOTION-STARTED at SEQ. -/
def judgeMotion (s : State) : State :=
  if s.seq.grant = .none ∧ s.seq.coasting = false ∧ s.seq.runDown = false then unsanctioned s else s

/-- R137: REVERSE-TRAVEL at SEQ. -/
def judgeReverse (s : State) : State :=
  if s.seq.state = .running ∧ s.seq.grant = .forward then unsanctioned s else s

/-- An action of an encoder step taken by the blocks it concerns. -/
def ShaftAction.take (x : ShaftAction) (s : State) : State :=
  match x with
  | .angleFault => raiseAngleFault s
  | .fire a => scheduleEvent a { s with ang := { s.ang with armed := s.ang.armed.filter fun y => decide (y ≠ a) } }
  | .place n i l => { s with ang := { s.ang with count := n, index := i, armed := l } }
  | .crossing d => indexCrossing d s
  | .motionStarted => judgeMotion s
  | .reverseTravel => judgeReverse s

/-- The actions of an encoder step, and the draws made for those whose place is free (R9, log 8). SEQ takes
MOTION-STARTED and REVERSE-TRAVEL with the count already moved, so that a guard entry they bring records the angle after
the step (R10; for R11 the model's choice, log 8). -/
def Ang.actions (a : Ang) (d : Dir) (encz : Bool) (draws : Nat) : List ShaftAction × Nat :=
  let l := a.ordered d encz
  placeFreely .reverseTravel (a.reachesReverse d)
    (placeFreely .motionStarted (a.startsMotion (countAfter a.count l)) (l, draws))

/-- ENCODER_STEP (R1 to R11, R13). -/
def execEncoderStep (d : Dir) (encz : Bool) (s : State) : Host.Outcome State Fault Refusal :=
  let r := s.ang.actions d encz s.draws
  .next (r.1.foldl (fun s x => x.take s)
    { s with ang := s.ang.moved d encz (countAfter s.ang.count (s.ang.ordered d encz)), draws := r.2 })

/-- ENCODER_ERROR (R1, R6). -/
def execEncoderError (encz : Bool) (s : State) : Host.Outcome State Fault Refusal :=
  .next (raiseAngleFault { s with ang := { s.ang with indexLevel := encz, index := .unindexed } })

/-! ### Timers -/

/-- SETTLE_TIMER_EXPIRY (R10, R124, R170). With the timer stopped there is no expiry (log 3). -/
def execSettleTimerExpiry (s : State) : Host.Outcome State Fault Refusal :=
  match s.ang.settleTimer with
  | none => .next s
  | some _ =>
    .next (exitCheck (restHandling false
      { s with ang := { s.ang with
          rest := .atRest, restAngle := s.ang.angle, reverseTravel := 0, settleTimer := none } }))

/-- STALL_TIMER_EXPIRY (R13). With the timer stopped there is no expiry (log 3). -/
def execStallTimerExpiry (s : State) : Host.Outcome State Fault Refusal :=
  match s.ang.stallTimer with
  | none => .next s
  | some _ => .next (trigger .driveStall { s with ang := { s.ang with stallWatch := .expired, stallTimer := none } })

/-- WSTOP_CHANGE (R163). A level equal to the raw level is no change (log 35). -/
def execWstopChange (level : Bool) (s : State) : Host.Outcome State Fault Refusal :=
  if level = s.grd.rawWarp then .next s
  else .next { s with grd := { s.grd with rawWarp := level, filterTimer := some s.grd.filterTime } }

/-- FILTER_TIMER_EXPIRY (R163). With the timer stopped there is no expiry (log 3). -/
def execFilterTimerExpiry (s : State) : Host.Outcome State Fault Refusal :=
  match s.grd.filterTimer with
  | none => .next s
  | some _ =>
    let t := { s with grd := { s.grd with filterTimer := none, warp := s.grd.rawWarp } }
    match s.grd.warp, s.grd.rawWarp with
    | false, true => .next (trigger .warpStop t)
    | true, false => .next (exitCheck t)
    | false, false => .next t
    | true, true => .next t

/-- ARRIVAL_EDGE (R87). -/
def execArrivalEdge (s : State) : Host.Outcome State Fault Refusal :=
  match s.wft.window, s.wft.capture with
  | some _, none => .next { s with wft := { s.wft with capture := some s.ang.angle } }
  | some _, some _ => .next { s with wft := { s.wft with extra := raiseTo 65535 s.wft.extra } }
  | none, _ => .next { s with wft := { s.wft with stray := raiseTo 65535 s.wft.stray } }

/-- POWER_ON_RESET (R16, R37, R54, R75, R96, R117, R144, R159, R174, R188). The model's own fields stay (log 6). -/
def execPowerOnReset (encz wstop : Bool) (s : State) : Host.Outcome State Fault Refusal :=
  .next { State.powerOn encz wstop with draws := s.draws, pending := s.pending }

/-! ### The schedule -/

/-- R14, R48: UNLOADED, or READY with no motion grant in force. -/
def State.writable (s : State) : Bool :=
  decide (s.seq.state = .unloaded) || decide (s.seq.state = .ready) && decide (s.seq.grant = .none)

/-- R14: the armed set re-derived from new angles. -/
def Ang.rederived (a : Ang) (c : Schedule) : List SchedAngle :=
  match a.index with
  | .unindexed => SchedAngle.all
  | .indexed => SchedAngle.all.filter fun x => decide (a.count < (c.angle x : Int))

/-- R14: SET-SCHEDULE at ANG. -/
def setSchedule (c : Schedule) (s : State) : State × Reply :=
  if s.writable then
    if c.legal then accept { s with ang := { s.ang with sched := c, armed := s.ang.rederived c } } []
    else refuse s .badArgument
  else refuse s .wrongState

/-- SET_SCHEDULE (R14). -/
def execSetSchedule (c : Schedule) (s : State) : Host.Outcome State Fault Refusal :=
  .next (request .p .setSchedule .good (setSchedule c) s)

/-- READ_SCHEDULE (R15). -/
def execReadSchedule (s : State) : Host.Outcome State Fault Refusal :=
  .next (request .p .readSchedule .good (fun s => accept s (bSchedule s.ang.sched)) s)

end Sys2Proof.Machine
end

