-- ==== Sys2Proof/Machine/Chain.lean ====
section
/-! DEFINITION. The commands of the hook chain (chapters 4 and 6): CENSUS, CENSUS_RESULT, HOOK_TEST, HOOK_TEST_END,
READ_MODULES, STATUS_REFRESH, REFRESH_COMPLETION, SET_ECHO_BUDGET, JOB_COMPLETION, TRANSFER_COMPLETION and
TAKE_COMPLETION. -/

namespace Sys2Proof.Machine

/-! ### Census -/

/-- R100: CENSUS at HCC: the marker is sent; the answer comes with its result. -/
def census (s : State) : State × Reply :=
  if s.seq.state = .unloaded ∧ s.hcc.transfer = .idle then
    ({ s with hcc := { s.hcc with busTest := .census } }, .later)
  else refuse s .wrongState

/-- CENSUS (R100). -/
def execCensus (s : State) : Host.Outcome State Fault Refusal := .next (request .p .census .good census s)

/-- R100: the modules counted when the marker returns after `n` shift positions; none for CHAIN-OPEN. -/
def counted (marker : Option Nat) : Option Nat :=
  match marker with
  | none => none
  | some n =>
    if n % Config.moduleLength = 0 ∧ 1 ≤ n / Config.moduleLength ∧ n / Config.moduleLength ≤ Config.maxModules then
      some (n / Config.moduleLength)
    else none

/-- R100: the result of a census with the count `c`, none for CHAIN-OPEN (log 21). -/
def censusEnds (c : Option Nat) (s : State) : State :=
  let t := releaseLatched s.hcc.latched { s with
    hcc := { s.hcc with
      census := c.getD 0, latched := .unknown, status := Vector.replicate 96 .none, faultLevel := false, busTest := .none } }
  exitCheck (answer .p ⟨.ok, b8 (if c.isSome then 0 else 1) ++ b8 (c.getD 0)⟩ (reportLevel t))

/-- CENSUS_RESULT (R100). With no census in progress nothing ends (log 3). -/
def execCensusResult (marker : Option Nat) (s : State) : Host.Outcome State Fault Refusal :=
  if s.hcc.busTest = .census then .next (censusEnds (counted marker) s) else .next s

/-! ### Hook test -/

/-- R112: HOOK-TEST at HCC. A refusal of CHECK-FAILED records NOT-RUN. -/
def hookTest (s : State) : State × Reply :=
  if s.seq.state = .unloaded ∧ s.hcc.transfer = .idle then
    if 1 ≤ s.hcc.census ∧ s.hcc.census ≤ Config.maxModules then
      ({ s with hcc := { s.hcc with busTest := .hookTest } }, .later)
    else refuse { s with hcc := { s.hcc with hookTest := some .notRun } } .checkFailed
  else refuse s .wrongState

/-- HOOK_TEST (R112). -/
def execHookTest (s : State) : Host.Outcome State Fault Refusal := .next (request .p .hookTest .good hookTest s)

/-- R112: a stage passes when all four patterns come back unchanged. -/
def StageReturn.passes (r : StageReturn) : Bool :=
  decide (r.lowered = .intact) && decide (r.raised = .intact) && decide (r.alternating = .intact) &&
    decide (r.otherWay = .intact)

/-- R112: the first failing stage of a chain of `n` modules; a stage nothing came back from fails (log 22). -/
def hookResult (n : Nat) (stages : List StageReturn) : HookResult :=
  match (List.range n).find? fun k => !((stages[k]?.map StageReturn.passes).getD false) with
  | some k => .failed k
  | none => .passed

/-- R112: the hook test ends with a result. -/
def hookTestEnds (r : HookResult) (s : State) : State :=
  answer .p ⟨.ok, b8 (hookTestCode (some r))⟩ { s with hcc := { s.hcc with hookTest := some r, busTest := .none } }

/-- HOOK_TEST_END (R112). With no hook test in progress nothing ends (log 3). -/
def execHookTestEnd (stages : List StageReturn) (s : State) : Host.Outcome State Fault Refusal :=
  if s.hcc.busTest = .hookTest then .next (hookTestEnds (hookResult s.hcc.census stages) s) else .next s

/-! ### Module status -/

/-- R113: the modules of a clear set lie from 0 to 95. -/
def modulesOk (clear : List Nat) : Bool := clear.all fun m => decide (m < Config.maxModules)

/-- R113: READ-MODULES with refresh NO at HCC: the values from before the clear are returned. -/
def readModules (clear : List Nat) (s : State) : State × Reply :=
  if modulesOk clear then
    accept { s with hcc := { s.hcc with echoErrors := clearErrors clear s.hcc.echoErrors } } (modulesRecord s.hcc)
  else refuse s .badArgument

/-- READ_MODULES (R113). -/
def execReadModules (clear : List Nat) (s : State) : Host.Outcome State Fault Refusal :=
  .next (request .p .readModules .good (readModules clear) s)

/-- R115: a refresh completes with the statuses received: recorded, DONE and answered, then handed to GRD (log 23). -/
def refreshEnds (statuses : List EchoStatus) (s : State) : State :=
  let t := updateStatuses statuses s
  let t := { t with hcc := { t.hcc with transfer := .idle, refreshClear := [] } }
  let t := answerModules (b8 0) s.hcc.refreshClear t
  let faulty := t.hcc.faultLevel
  let t := triggerWhen faulty .moduleFault (reportLevel t)
  if s.hcc.faultLevel && !faulty then exitCheck t else t

/-- R115: the states in which a refresh is taken. -/
def State.refreshable (s : State) : Bool :=
  (s.writable || decide (s.seq.state = .guard) || decide (s.seq.state = .halted)) && decide (s.hcc.transfer = .idle)

/-- R115: a refresh begins. With census 0 it completes at once (log 19). -/
def startRefresh (clear : List Nat) (s : State) : State :=
  let t := { s with hcc := { s.hcc with transfer := .refreshing, refreshClear := clear } }
  if s.hcc.census = 0 then refreshEnds [] t else t

/-- R115: READ-MODULES with refresh YES at HCC (log 13). -/
def beginRefresh (clear : List Nat) (s : State) : State × Reply :=
  if modulesOk clear then
    if s.refreshable then (startRefresh clear s, .later) else refuse s .wrongState
  else refuse s .badArgument

/-- STATUS_REFRESH (R115). -/
def execStatusRefresh (clear : List Nat) (s : State) : Host.Outcome State Fault Refusal :=
  .next (request .p .readModules .good (beginRefresh clear) s)

/-- REFRESH_COMPLETION (R115). With no refresh in progress nothing ends (log 3). -/
def execRefreshCompletion (statuses : List EchoStatus) (s : State) : Host.Outcome State Fault Refusal :=
  if s.hcc.transfer = .refreshing then .next (refreshEnds statuses s) else .next s

/-- R116: SET-ECHO-BUDGET at HCC. -/
def setEchoBudget (t : Nat) (s : State) : State × Reply :=
  if 1 ≤ t ∧ t ≤ 255 then accept { s with hcc := { s.hcc with threshold := t, budget := t } } [] else refuse s .badArgument

/-- SET_ECHO_BUDGET (R116). -/
def execSetEchoBudget (t : Nat) (s : State) : Host.Outcome State Fault Refusal :=
  .next (request .p .setEchoBudget .good (setEchoBudget t) s)

/-! ### The stages of a pick on its way to the modules -/

/-- R70: SEQ takes the completion of the expansion: a PRESENT job moves to TRANSFERRING and the transfer is ordered. -/
def reportExpansion (s : State) : State :=
  match s.seq.present with
  | some j =>
    if j.stage = .expanding then
      startTransfer { s with seq := { s.seq with present := some { j with stage := .transferring } } }
    else s
  | none => s

/-- JOB_COMPLETION (R65, R67, R68, R70). With no job in flight nothing completes (R65, log 3). -/
def execJobCompletion (s : State) : Host.Outcome State Fault Refusal :=
  match s.xpe.job with
  | none => .next s
  | some j => .next (reportExpansion (completeJob j s))

/-- R103: a transfer completes; GRD makes the exit check when the level has become inactive (R170). -/
def transferEnds (n : Half) (echo : List ModuleEcho) (s : State) : State :=
  let t := transferResults n echo s
  reportTransfer n (if s.hcc.faultLevel && !t.hcc.faultLevel then exitCheck t else t)

/-- TRANSFER_COMPLETION (R103). With no transfer SHIFTING nothing completes (log 3). -/
def execTransferCompletion (echo : List ModuleEcho) (s : State) : Host.Outcome State Fault Refusal :=
  match s.hcc.transfer with
  | .shifting n => .next (transferEnds n echo s)
  | .idle => .next s
  | .shifted _ => .next s
  | .taking _ => .next s
  | .refreshing => .next s

/-- R109, R110, R126, R134: the completion of a TAKE: the pick is latched, held orders are taken, the PRESENT job is
complete, and what waited for the completion goes on. -/
def takeEnds (s : State) : State :=
  let t := finishPresent (if s.hcc.holdsReleased then closeReleased s else takeHeldDrop (latchStaged s))
  takePresentOrder (takeFindSteps t.seq.findWaiting t)

/-- TAKE_COMPLETION (R109). With no TAKE in progress nothing completes (log 3). -/
def execTakeCompletion (s : State) : Host.Outcome State Fault Refusal :=
  match s.hcc.transfer with
  | .taking _ => .next (takeEnds s)
  | .idle => .next s
  | .shifting _ => .next s
  | .shifted _ => .next s
  | .refreshing => .next s

end Sys2Proof.Machine
end

