-- ==== Sys2Proof/Machine/Changes.lean ====
section
/-! DEFINITION. The commands of the change unit (chapter 8): QUEUE_CHANGE, CANCEL_CHANGES, READ_CHANGES and SET_MARK. -/

namespace Sys2Proof.Machine

/-- R147 step 1: the argument of a condition lies in its range. -/
def conditionOk : Condition → Bool
  | .nextPick => true
  | .atRepeatEnd => true
  | .atMark k => decide (k ≤ 3)
  | .atCount n => decide (1 ≤ n) && decide (n ≤ 65535)

/-- R147: the entry made of a change, with the next change id (R146) and its remaining count. -/
def Chu.entry (u : Chu) (i : Fin 8) (card : Nat) (c : Condition) (phaseReset : Bool) : Change :=
  ⟨u.nextId, i, card, c, (match c with | .atCount n => some n | _ => none), phaseReset⟩

/-- R146, R147: an entry joins at the tail; the counter rises by one. -/
def joinQueue (e : Change) (s : State) : State :=
  claim .queue e.slot { s with chu := { s.chu with queue := s.chu.queue ++ [e], nextId := s.chu.nextId + 1 } }

/-- R147: QUEUE-CHANGE at CHU. -/
def queueChange (slot card : Nat) (c : Condition) (phaseReset : Bool) (s : State) : State × Reply :=
  match member 8 slot with
  | none => refuse s .badArgument
  | some i =>
    if conditionOk c = false then refuse s .badArgument
    else if s.seq.state = .unloaded ∨ s.seq.state = .halted then refuse s .wrongState
    else
      match (s.slot i).state, s.design i with
      | .valid, some d =>
        if d.height ≤ card then refuse s .badArgument
        else if 4 ≤ s.chu.queue.length then refuse s .noSpace
        else
          accept (joinQueue (s.chu.entry i card c phaseReset) s) (b16 s.chu.nextId.toNat ++ b8 (s.chu.queue.length + 1))
      | _, _ => refuse s .checkFailed

/-- QUEUE_CHANGE (R147). -/
def execQueueChange (slot card : Nat) (c : Condition) (phaseReset : Bool) (s : State) :
    Host.Outcome State Fault Refusal :=
  .next (request .p .queueChange .good (queueChange slot card c phaseReset) s)

/-- R149: every entry leaves the queue. -/
def emptyQueue (s : State) : State :=
  let t := s.chu.queue.foldl (fun s c => releaseChange c s) s
  { t with chu := { t.chu with queue := [] } }

/-- CANCEL_CHANGES (R149). -/
def execCancelChanges (s : State) : Host.Outcome State Fault Refusal :=
  .next (request .p .cancelChanges .good (fun s => accept (emptyQueue s) (b8 s.chu.queue.length)) s)

/-- READ_CHANGES (R158). -/
def execReadChanges (s : State) : Host.Outcome State Fault Refusal :=
  .next (request .p .readChanges .good (fun s => accept s (changesRecord s.chu)) s)

/-- R150: SET-MARK at CHU. -/
def setMark (comparator : Nat) (mode : CompMode) (value mask : BitVec 8) (notice stop : Bool) (s : State) :
    State × Reply :=
  match member 4 comparator with
  | none => refuse s .badArgument
  | some k =>
    if s.writable then
      if mode ≠ .off ∧ mask = 0 then refuse s .badArgument
      else
        accept { s with chu := { s.chu with comps := upd s.chu.comps k ⟨mode, value, mask, notice, stop, 0⟩ } } []
    else refuse s .wrongState

/-- SET_MARK (R150). -/
def execSetMark (comparator : Nat) (mode : CompMode) (value mask : BitVec 8) (notice stop : Bool) (s : State) :
    Host.Outcome State Fault Refusal :=
  .next (request .p .setMark .good (setMark comparator mode value mask notice stop) s)

end Sys2Proof.Machine
end

