-- ==== Sys2Proof/Machine/Guard.lean ====
section
/-! DEFINITION. The commands of the guard unit (chapter 9): SET_GUARD, READ_GUARD, CLEAR_HALT and CLEAR_GUARD_COUNT. -/

namespace Sys2Proof.Machine

/-- R172: the ranges of a guard setting; only triggers that may be disabled are DISABLED (R160). -/
def guardOk (g : GuardSetting) : Bool :=
  decide (g.limit ≤ 15) && decide (1 ≤ g.filterTime) && decide (g.filterTime ≤ 255) &&
    Trigger.all.all fun t => g.enabled.get t.idx || t.mayDisable

/-- R172: every setting replaced, the guard count clamped to a new limit above 0. -/
def Grd.set (g : Grd) (c : GuardSetting) : Grd :=
  { g with
    enabled := c.enabled, counts := c.counts, shed := c.shed, limit := c.limit, autoClear := c.autoClear,
    filterTime := c.filterTime,
    count := if 0 < c.limit ∧ c.limit < g.count then c.limit else g.count }

/-- R162: SET-GUARD newly enables the level trigger `t`, whose level is `active`: an onset. -/
def Grd.hasOnset (new old : Grd) (t : Trigger) (active : Bool) : Bool := active && new.isEnabled t && !old.isEnabled t

/-- R172: the two onsets of one SET-GUARD, in a free order (log 28); a choice is drawn when both are raised. -/
def onsets (old : Grd) (s : State) : State :=
  let w := s.grd.hasOnset old .warpStop s.grd.warp
  let m := s.grd.hasOnset old .moduleFault s.grd.moduleLevel
  if w && m then
    let t := { s with draws := s.draws + 1 }
    if Config.warpFirst s.draws then trigger .moduleFault (trigger .warpStop t)
    else trigger .warpStop (trigger .moduleFault t)
  else triggerWhen m .moduleFault (triggerWhen w .warpStop s)

/-- R172: a level trigger is newly DISABLED. -/
def Grd.disables (new old : Grd) : Bool :=
  (old.isEnabled .warpStop && !new.isEnabled .warpStop) || (old.isEnabled .moduleFault && !new.isEnabled .moduleFault)

/-- R172: an accepted SET-GUARD. -/
def replaceGuard (g : GuardSetting) (s : State) : State :=
  let t := onsets s.grd { s with grd := s.grd.set g }
  if (s.grd.set g).disables s.grd then exitCheck t else t

/-- R172: SET-GUARD at GRD. -/
def setGuard (g : GuardSetting) (s : State) : State × Reply :=
  if guardOk g then accept (replaceGuard g s) [] else refuse s .badArgument

/-- SET_GUARD (R172). -/
def execSetGuard (g : GuardSetting) (s : State) : Host.Outcome State Fault Refusal :=
  .next (request .p .setGuard .good (setGuard g) s)

/-- R173: the occurrence totals named in a clear set become 0. -/
def Grd.clearTotals (g : Grd) (clear : List Trigger) : Grd :=
  { g with totals := Vector.ofFn fun i => if clear.any fun t => t.idx = i then 0 else g.totals.get i }

/-- READ_GUARD (R173). -/
def execReadGuard (clear : List Trigger) (s : State) : Host.Outcome State Fault Refusal :=
  .next (request .p .readGuard .good
    (fun s => accept { s with grd := s.grd.clearTotals clear } (guardRecord s.grd s.seq.coasting)) s)

/-- R171: CLEAR-HALT at GRD. The response carries the state that R140 gives the exit; the presentation of R52 follows it
(log 40). -/
def clearHalt (s : State) : State × Reply :=
  if s.seq.state = .halted ∧ s.mayExit = true then
    let t := guardExit { s with grd := { s.grd with count := 0, run := 0 } }
    accept (presentOwed t) (b8 (stateCode t.seq.state))
  else refuse s .wrongState

/-- CLEAR_HALT (R171). -/
def execClearHalt (s : State) : Host.Outcome State Fault Refusal := .next (request .p .clearHalt .good clearHalt s)

/-- CLEAR_GUARD_COUNT (R169). -/
def execClearGuardCount (s : State) : Host.Outcome State Fault Refusal :=
  .next (request .p .clearGuardCount .good
    (fun s => accept { s with grd := { s.grd with count := 0 } } (b8 s.grd.count)) s)

end Sys2Proof.Machine
end

