-- ==== Sys2Proof/Machine/Harness.lean ====
section
/-! DEFINITION. The commands of the weave library and the harness map (chapter 3): DEFINE_WEAVE, READ_WEAVE, SET_SECTION,
SET_DEAD_LIST, ADD_DEAD_HOOK, REMOVE_DEAD_HOOK and READ_HARNESS. -/

namespace Sys2Proof.Machine

/-- R48, R52: a map write taken: in READY the cursor pick is presented again in the same step, and is owed that
presentation until the TAKE of an image expanded after the write completes, also through a guard entry (log 40). -/
def mapWritten (s : State) : State :=
  if s.seq.state = .ready then
    represent { s with seq := { s.seq with representOwed := if s.hcc.isTaking then .afterTake else .nextTake } }
  else s

/-! ### Weaves -/

/-- R40: the held slots whose effect map names the entry, ascending. -/
def State.heldNaming (s : State) (v : Nat) : List (Fin 8) :=
  (List.finRange 8).filter fun i =>
    (s.slot i).held && match s.design i with | some d => d.map.toList.any fun x => x = v | none => false

/-- R41: the FIXED sections that name the entry, ascending. -/
def Hmp.fixedNaming (m : Hmp) (v : Nat) : List (Fin 16) :=
  (List.finRange 16).filter fun n =>
    match m.sections.get n with
    | some (.fixed _ _ x _) => decide (x = v)
    | _ => false

/-- R39: DEFINE-WEAVE at WLB. -/
def defineWeave (entry w h : Nat) (lifts : List Bool) (s : State) : State × Reply :=
  match member 32 entry with
  | none => refuse s .badArgument
  | some i =>
    let fixed := !(s.hmp.fixedNaming entry).isEmpty
    if s.heldNaming entry ≠ [] then refuse s .held
    else if fixed && !s.writable then refuse s .wrongState
    else if 1 ≤ w ∧ w ≤ 32 ∧ 1 ≤ h ∧ h ≤ 32 then
      let t := { s with wlb := upd s.wlb i ⟨w, h, lifts⟩ }
      accept (if fixed then mapWritten t else t) []
    else refuse s .badArgument

/-- DEFINE_WEAVE (R39). -/
def execDefineWeave (entry w h : Nat) (lifts : List Bool) (s : State) : Host.Outcome State Fault Refusal :=
  .next (request .p .defineWeave (weaveCheck w h lifts) (defineWeave entry w h lifts) s)

/-- R41: READ-WEAVE at WLB. -/
def readWeave (entry : Nat) (s : State) : State × Reply :=
  match member 32 entry with
  | none => refuse s .badArgument
  | some i =>
    let v := s.wlb.get i
    accept s (b8 v.width ++ b8 v.height ++ bBits v.lifts ++ bList (fun x => b8 x.1) (s.heldNaming entry) ++
      bList (fun x => b8 x.1) (s.hmp.fixedNaming entry))

/-- READ_WEAVE (R41). -/
def execReadWeave (entry : Nat) (s : State) : Host.Outcome State Fault Refusal :=
  .next (request .p .readWeave .good (readWeave entry) s)

/-! ### Sections -/

/-- R42, R49 step 3: the ranges of a section record. -/
def sectionOk (r : SectionRecord) : Bool :=
  decide (firstHook r ≤ lastHook r) && decide (lastHook r ≤ 12287) &&
    match r with
    | .figure _ _ t _ c n w =>
      decide (c ≤ 6143) && decide ((match t with | .straight => 1 | .point => 2) ≤ n) && decide (n ≤ 6144) && decide (w ≤ 31)
    | .fixed _ _ v w => decide (v ≤ 31) && decide (w ≤ 31)
    | .down _ _ => true

/-- R49: what may be set: ABSENT, or a record in its ranges. -/
def sectionArgOk : Option SectionRecord → Bool
  | none => true
  | some r => sectionOk r

/-- R49: SET-SECTION at HMP. -/
def setSection (number : Nat) (record : Option SectionRecord) (s : State) : State × Reply :=
  match member 16 number with
  | none => refuse s .badArgument
  | some n =>
    if s.writable then
      if sectionArgOk record then
        accept (mapWritten { s with hmp := { s.hmp with sections := upd s.hmp.sections n record } }) []
      else refuse s .badArgument
    else refuse s .wrongState

/-- SET_SECTION (R49). -/
def execSetSection (number : Nat) (record : Option SectionRecord) (s : State) : Host.Outcome State Fault Refusal :=
  .next (request .p .setSection .good (setSection number record) s)

/-! ### Dead hooks -/

/-- R50: strictly ascending numbers. -/
def ascending : List Nat → Bool
  | [] => true
  | [_] => true
  | a :: b :: r => decide (a < b) && ascending (b :: r)

/-- The dead-hook list replaced by a map write. -/
def setDead (hooks : List Nat) (s : State) : State := mapWritten { s with hmp := { s.hmp with dead := hooks } }

/-- R50: SET-DEAD-LIST at HMP. -/
def setDeadList (hooks : List Nat) (s : State) : State × Reply :=
  if s.writable then
    if hooks.all (fun h => decide (h ≤ 12287)) && ascending hooks then accept (setDead hooks s) []
    else refuse s .badArgument
  else refuse s .wrongState

/-- SET_DEAD_LIST (R50). -/
def execSetDeadList (hooks : List Nat) (s : State) : Host.Outcome State Fault Refusal :=
  .next (request .p .setDeadList (countCheck 0 128 hooks.length) (setDeadList hooks) s)

/-- R51: a hook inserted in its ascending place. -/
def insertHook (h : Nat) : List Nat → List Nat
  | [] => [h]
  | x :: r => if h < x then h :: x :: r else if h = x then x :: r else x :: insertHook h r

/-- R51: ADD-DEAD-HOOK at HMP. -/
def addDeadHook (h : Nat) (s : State) : State × Reply :=
  if 12287 < h then refuse s .badArgument
  else if s.writable then
    if h ∈ s.hmp.dead then accept (setDead s.hmp.dead s) (b8 s.hmp.dead.length)
    else if s.hmp.dead.length < 128 then
      accept (setDead (insertHook h s.hmp.dead) s) (b8 (insertHook h s.hmp.dead).length)
    else refuse s .noSpace
  else refuse s .wrongState

/-- ADD_DEAD_HOOK (R51). -/
def execAddDeadHook (h : Nat) (s : State) : Host.Outcome State Fault Refusal :=
  .next (request .p .addDeadHook .good (addDeadHook h) s)

/-- R51: REMOVE-DEAD-HOOK at HMP. -/
def removeDeadHook (h : Nat) (s : State) : State × Reply :=
  if 12287 < h then refuse s .badArgument
  else if s.writable then
    let l := s.hmp.dead.filter fun x => decide (x ≠ h)
    accept (setDead l s) (b8 l.length)
  else refuse s .wrongState

/-- REMOVE_DEAD_HOOK (R51). -/
def execRemoveDeadHook (h : Nat) (s : State) : Host.Outcome State Fault Refusal :=
  .next (request .p .removeDeadHook .good (removeDeadHook h) s)

/-- READ_HARNESS (R53). -/
def execReadHarness (s : State) : Host.Outcome State Fault Refusal :=
  .next (request .p .readHarness .good (fun s => accept s (harnessRecord s.hmp)) s)

end Sys2Proof.Machine
end

