-- ==== Sys2Proof/Machine/LinkRequests.lean ====
section
/-! DEFINITION. The requests that the link interfaces answer themselves, and READ_STATUS (sections 10.4, 10.5): IDENTIFY,
READ_NOTICES, SET_NOTICE_MASK. -/

namespace Sys2Proof.Machine

/-- Section 10.5: the kinds a link carries. -/
def carries (l : LinkId) (k : NoticeKind) : Bool :=
  match k, l with
  | .guardEntered, _ => true
  | .guardLeft, .w => false
  | .guardLeft, _ => true
  | .halted, .w => false
  | .halted, _ => true
  | .readyChanged, x => x = .d
  | .windowInterrupted, .d => false
  | .windowInterrupted, _ => true
  | .planChanged, x => x = .w
  | _, x => x = .p

/-- IDENTIFY (R182). -/
def execIdentify (l : LinkId) (s : State) : Host.Outcome State Fault Refusal :=
  .next (request l .identify .good (fun s => accept s (identifyRecord l)) s)

/-- R186 steps 2 and 3: the kinds named leave the set with their details, and the line follows (R185). -/
def Link.clear (clear : List NoticeKind) (linkErrors : Bool) (k : Link) : Link :=
  { k.setNotices (k.notices.filter fun n => decide (n ∉ clear)) with
    droppedId := if NoticeKind.changeDropped ∈ clear then none else k.droppedId
    ignored := if NoticeKind.triggerIgnored ∈ clear then none else k.ignored
    errors := if linkErrors then 0 else k.errors }

/-- R186: READ-NOTICES at the link interface. -/
def readNotices (l : LinkId) (clear : List NoticeKind) (linkErrors : Bool) (s : State) : State × Reply :=
  if clear.all (carries l) then accept (s.modLink l (Link.clear clear linkErrors)) (noticesRecord l (s.link l))
  else refuse s .badArgument

/-- R180: the start of an overlapping frame taken while a READ-NOTICES is outstanding, before it gathers its values. -/
def overlapFirst (overlapped : Bool) (l : LinkId) (s : State) : State :=
  if overlapped then s.modLink l Link.startFrame else s

/-- READ_NOTICES (R186, R180). -/
def execReadNotices (l : LinkId) (clear : List NoticeKind) (linkErrors : ErrorsRead) (s : State) :
    Host.Outcome State Fault Refusal :=
  .next (request l .readNotices .good
    (fun s => readNotices l clear linkErrors.clear (overlapFirst linkErrors.overlapped l s)) s)

/-- R187: the mask replaced as a whole, and the line set. Kept by rising code. -/
def Link.setMask (mask : List NoticeKind) (k : Link) : Link :=
  let m := NoticeKind.all.filter fun x => decide (x ∈ mask)
  { k with mask := m, attention := attentionOf k.notices m }

/-- R187: SET-NOTICE-MASK at the link interface. -/
def setNoticeMask (l : LinkId) (mask : List NoticeKind) (s : State) : State × Reply :=
  if mask.all (carries l) then
    let t := s.modLink l (Link.setMask mask)
    accept t (bFlag (t.link l).attention)
  else refuse s .badArgument

/-- SET_NOTICE_MASK (R187). -/
def execSetNoticeMask (l : LinkId) (mask : List NoticeKind) (s : State) : Host.Outcome State Fault Refusal :=
  .next (request l .setNoticeMask .good (setNoticeMask l mask) s)

/-- READ_STATUS (R183). -/
def execReadStatus (s : State) : Host.Outcome State Fault Refusal :=
  .next (request .p .readStatus .good (fun s => accept s (statusRecord s)) s)

end Sys2Proof.Machine
end

