-- ==== Sys2Proof/Machine/Sequencer.lean ====
section
/-! DEFINITION. The commands of the sequencer (chapter 7): READINESS, the four kinds of MOTION, SELECT_DESIGN,
READ_HISTORY and RESET_SEQUENCER. -/

namespace Sys2Proof.Machine

/-! ### Motion -/

/-- R7: the shaft is in the start zone. -/
def Ang.inStartZone (a : Ang) : Bool :=
  decide (a.index = .indexed) && decide ((a.sched.latch : Int) ≤ a.count) && decide (a.count < (a.sched.opening : Int))

/-- R121, and the first four checks of R120: the refusal of FIND and POSITION, if any. -/
def State.motionRefusal (s : State) : Option Status :=
  if s.seq.state = .presenting then some .busy
  else if s.seq.state ≠ .ready then some .wrongState
  else if s.seq.grant ≠ .none then some .wrongState
  else if s.ang.rest ≠ .atRest then some .wrongState
  else none

/-- R120: the refusal of FORWARD, if any. Without a pending plan it is NO-FEEDER (log 29). -/
def State.forwardRefusal (s : State) : Option Status :=
  match s.motionRefusal with
  | some r => some r
  | none =>
    if s.ang.inStartZone = false then some .wrongAngle
    else if s.grd.warp then some .causeActive
    else if s.pendingFeeder = none then some .noFeeder
    else none

/-- R119: an accepted MOTION carries the grant now in force and the sequencer state. -/
def motionAnswer (s : State) : State × Reply := accept s (b8 (grantCode s.seq.grant) ++ b8 (stateCode s.seq.state))

/-- R13, R120: FORWARD is granted. -/
def grantForward (s : State) : State :=
  raise .d .readyChanged
    { s with
      seq := { s.seq with grant := .forward, state := .running }
      ang := { s.ang with stallWatch := .armed, stallTimer := some (10 * s.ang.sched.stall) } }

/-- R120: MOTION FORWARD at SEQ. -/
def motionForward (s : State) : State × Reply :=
  match s.forwardRefusal with
  | some r => refuse s r
  | none => motionAnswer (grantForward s)

/-- MOTION_FORWARD (R120). -/
def execMotionForward (s : State) : Host.Outcome State Fault Refusal := .next (request .d .motion .good motionForward s)

/-- R121: FIND is granted. -/
def grantFind (s : State) : State :=
  raise .d .readyChanged { s with seq := { s.seq with grant := .find, state := .finding } }

/-- R121: MOTION FIND at SEQ. -/
def motionFind (s : State) : State × Reply :=
  match s.motionRefusal with
  | some r => refuse s r
  | none => motionAnswer (grantFind s)

/-- MOTION_FIND (R121). -/
def execMotionFind (s : State) : Host.Outcome State Fault Refusal := .next (request .d .motion .good motionFind s)

/-- R122: POSITION is granted. -/
def grantPosition (s : State) : State := { s with seq := { s.seq with grant := .position } }

/-- R122: MOTION POSITION at SEQ. -/
def motionPosition (s : State) : State × Reply :=
  match s.motionRefusal with
  | some r => refuse s r
  | none => motionAnswer (grantPosition s)

/-- MOTION_POSITION (R122). -/
def execMotionPosition (s : State) : Host.Outcome State Fault Refusal := .next (request .d .motion .good motionPosition s)

/-- R123: the grant becomes NONE; RUNNING becomes STOPPING and the stall watch goes off. -/
def dropGrant (s : State) : State :=
  let t := { s with seq := { s.seq with grant := .none } }
  if s.seq.state = .running then stallOff { t with seq := { t.seq with state := .stopping } } else t

/-- R123: STOP at SEQ: run-down while MOVING, the rest handling at once while AT-REST. -/
def stopMotion (s : State) : State :=
  let t := dropGrant s
  match s.ang.rest with
  | .moving => { t with seq := { t.seq with runDown := true } }
  | .atRest => restHandling true t

/-- STOP (R123). -/
def execStop (s : State) : Host.Outcome State Fault Refusal :=
  .next (request .d .motion .good (fun s => motionAnswer (stopMotion s)) s)

/-- R184: the record of READINESS (section 11.4), 6 bytes. -/
def readinessRecord (s : State) : List Byte :=
  b8 (stateCode s.seq.state) ++ b8 (grantCode s.seq.grant) ++
  b8 (maskOf 7 fun k =>
    [s.seq.coasting, s.seq.runDown, s.grd.stopRequest, decide (s.ang.index = .indexed), decide (s.ang.rest = .atRest),
      s.latchedBelongs, s.pendingFeeder.isSome].getD k false) ++
  b16 s.ang.angle ++
  (match s.forwardRefusal with | some r => [r.code] | none => b8 255)

/-- READINESS (R184). -/
def execReadiness (s : State) : Host.Outcome State Fault Refusal :=
  .next (request .d .readiness .good (fun s => accept s (readinessRecord s)) s)

/-! ### Selection -/

/-- R125: SEQ sets the cursor to a selected slot and card and orders a PRESENT job. -/
def selectCursor (c : Cursor) (s : State) : State := represent (moveCursor c s)

/-- R125: SELECT-DESIGN at SEQ. -/
def selectDesign (slot card : Nat) (s : State) : State × Reply :=
  match member 8 slot with
  | none => refuse s .badArgument
  | some i =>
    if s.writable then
      match (s.slot i).state, s.design i with
      | .valid, some d =>
        if card < d.height then
          let c := (d.forward card).1
          accept (selectCursor ⟨i, c, 0, 0, 0, s.seq.serial⟩ s) (b16 c ++ b16 s.seq.serial.toNat)
        else refuse s .badArgument
      | _, _ => refuse s .checkFailed
    else refuse s .wrongState

/-- SELECT_DESIGN (R125). -/
def execSelectDesign (slot card : Nat) (s : State) : Host.Outcome State Fault Refusal :=
  .next (request .p .selectDesign .good (selectDesign slot card) s)

/-! ### History -/

/-- R141: the entries READ-HISTORY returns, newest first. -/
def Seq.entries (q : Seq) (depth count : Nat) : List HistEntry := (q.history.reverse.drop depth).take count

/-- R141: READ-HISTORY at SEQ. -/
def readHistory (depth count : Nat) (s : State) : State × Reply :=
  if depth ≤ 63 ∧ 1 ≤ count ∧ count ≤ 64 then
    let es := s.seq.entries depth count
    accept s (b8 s.seq.history.length ++ b32 s.seq.woven.toNat ++ b8 es.length ++ es.flatMap bEntry)
  else refuse s .badArgument

/-- READ_HISTORY (R141). A count of 0 is the link's BAD-ARGUMENT (R191). -/
def execReadHistory (depth count : Nat) (s : State) : Host.Outcome State Fault Refusal :=
  .next (request .p .readHistory (if count = 0 then .badArgument else .good) (readHistory depth count) s)

/-! ### Reset -/

/-- R96: WFT at RESET-SEQUENCER. -/
def Wft.weaveReset (w : Wft) : Wft :=
  { w with
    feeders := w.feeders.map fun f => { f with failures := 0 }
    window := none, capture := none, report := none, withheld := false }

/-- R159: CHU at RESET-SEQUENCER. -/
def Chu.weaveReset (u : Chu) : Chu := { u with queue := [], comps := u.comps.map fun c => { c with hits := 0 } }

/-- R174: GRD at RESET-SEQUENCER. -/
def Grd.weaveReset (g : Grd) : Grd := { g with count := 0, run := 0, causes := [], stopRequest := false }

/-- R56, R75, R144: SEQ at RESET-SEQUENCER. -/
def Seq.weaveReset (q : Seq) : Seq :=
  { q with
    state := .unloaded, grant := .none, coasting := false, runDown := false,
    serial := (match q.cursor with | some c => c.serial + 1 | none => q.serial),
    cursor := none, present := none, findWaiting := 0, presentWaiting := false, history := [], representOwed := .no }

/-- R143: the QUEUE, HISTORY and CURSOR releases of RESET-SEQUENCER. -/
def releaseProgram (s : State) : State :=
  releaseCursor s.seq.cursor (releaseEntries s.seq.history (s.chu.queue.foldl (fun s c => releaseChange c s) s))

/-- R30: the STAGED release for the pick in the buffer, if any. -/
def releaseStaged (x : Staging) (s : State) : State :=
  match x.plan with
  | some p => release .staged p.cursor.slot s
  | none => s

/-- R143, R37: the STAGED and LATCHED releases of RESET-SEQUENCER while HCC is TAKING, so that no slot is held after the
step; the pick and the record themselves stay until the TAKE completes (R110, log 15). -/
def releaseTaken (s : State) : State :=
  if s.hcc.isTaking && !s.hcc.holdsReleased then
    let t := releaseLatched s.hcc.latched (releaseStaged s.xpe.staging s)
    { t with hcc := { t.hcc with holdsReleased := true } }
  else s

/-- R143: RESET-SEQUENCER at SEQ. A TAKE in progress completes first (R110, log 15). -/
def resetWeaving (s : State) : State :=
  let t := dropAll (discardStaging (releaseTaken (releaseProgram s)))
  departed s.seq.state (stallOff
    { t with seq := t.seq.weaveReset, chu := t.chu.weaveReset, wft := t.wft.weaveReset, grd := t.grd.weaveReset })

/-- RESET_SEQUENCER (R143). -/
def execResetSequencer (s : State) : Host.Outcome State Fault Refusal :=
  .next (request .p .resetSequencer .good (fun s => accept (resetWeaving s) []) s)

end Sys2Proof.Machine
end

