-- ==== Sys2Proof/Machine/Store.lean ====
section
/-! DEFINITION. The commands of the design store (chapter 2): DEFINE_DESIGN to READ_STORE and COMMIT_SCAN_END. -/

namespace Sys2Proof.Machine

/-- R21: a slot number outside 0 to 7 is refused BAD-ARGUMENT before any other check. -/
def withSlot (slot : Nat) (s : State) (f : Fin 8 → Slot → State × Reply) : State × Reply :=
  match member 8 slot with
  | none => refuse s .badArgument
  | some i => f i (s.slot i)

/-- A slot with its design changed. -/
def Slot.modDesign (f : Design → Design) (s : Slot) : Slot := { s with design := s.design.map f }

/-! ### Defining and filling -/

/-- R22: the blocks a design takes: the lowest-numbered free ones, ascending. -/
def Fst.lowestFree (f : Fst) (n : Nat) : List Nat :=
  (((List.finRange 256).filter fun b => (f.owner.get b).isNone).map (·.1)).take n

/-- R19: blocks given to an owner, or freed. -/
def Fst.setOwner (f : Fst) (blocks : List Nat) (o : Option (Fin 8)) : Vector (Option (Fin 8)) 256 :=
  Vector.ofFn fun b => if b.1 ∈ blocks then o else f.owner.get b

/-- R19, R22: a design is defined in slot `i`. -/
def Fst.define (f : Fst) (i : Fin 8) (w h : Nat) (map : Vector Nat 16) : Fst :=
  let blocks := f.lowestFree (blocksNeeded w h)
  { slots := upd f.slots i { f.slots.get i with
      state := .loading, design := some ⟨w, h, map, [], []⟩, blocks := blocks, nonVoid := none }
    owner := f.setOwner blocks (some i)
    free := f.free - blocksNeeded w h }

/-- R22: the ranges of a header. -/
def headerOk (w h : Nat) (map : Vector Nat 16) : Bool :=
  decide (8 ≤ w) && decide (w ≤ 6144) && decide (1 ≤ h) && decide (h ≤ 16384) && map.toList.all fun v => decide (v ≤ 31)

/-- R22: DEFINE-DESIGN at FST. -/
def defineDesign (slot w h : Nat) (map : Vector Nat 16) (s : State) : State × Reply :=
  withSlot slot s fun i x =>
    if x.state ≠ .empty then refuse s .wrongState
    else if headerOk w h map = false then refuse s .badArgument
    else if s.fst.free < blocksNeeded w h then refuse s .noSpace
    else
      accept { s with fst := s.fst.define i w h map } (b16 (blocksNeeded w h) ++ b16 (s.fst.free - blocksNeeded w h))

/-- DEFINE_DESIGN (R22). -/
def execDefineDesign (slot w h : Nat) (map : Vector Nat 16) (s : State) : Host.Outcome State Fault Refusal :=
  .next (request .p .defineDesign .good (defineDesign slot w h map) s)

/-- R23, R25: a run of cells lies within the design. -/
def Design.runFits (d : Design) (card column count : Nat) : Bool :=
  decide (card < d.height) && decide (column < d.width) && decide (card * d.width + column + count ≤ d.height * d.width)

/-- R23: the cells of a run written in row order, from linear place `q` on. -/
def Design.writeRun (d : Design) (q : Nat) : List (BitVec 4) → Design
  | [] => d
  | v :: vs => (d.setCell (q / d.width) (q % d.width) v).writeRun (q + 1) vs

/-- R23: WRITE-FIGURE at FST. -/
def writeFigure (slot card column : Nat) (cells : List (BitVec 4)) (s : State) : State × Reply :=
  withSlot slot s fun i x =>
    match x.state, x.design with
    | .loading, some d =>
      if d.runFits card column cells.length then
        accept { s with fst := s.fst.modSlot i (·.modDesign fun d => d.writeRun (card * d.width + column) cells) } []
      else refuse s .badArgument
    | _, _ => refuse s .wrongState

/-- WRITE_FIGURE (R23). -/
def execWriteFigure (slot card column : Nat) (cells : List (BitVec 4)) (s : State) :
    Host.Outcome State Fault Refusal :=
  .next (request .p .writeFigure (countCheck 1 8000 cells.length) (writeFigure slot card column cells) s)

/-- R24: consecutive card records written from card `c` on. -/
def Design.writeCards (d : Design) (c : Nat) : List CardRecord → Design
  | [] => d
  | r :: rs => (d.setCard c r).writeCards (c + 1) rs

/-- R24: a card record in its ranges. -/
def recordOk (r : CardRecord) : Bool := decide (1 ≤ r.pickRepeat) && decide (r.pickRepeat ≤ 4)

/-- R24: WRITE-CARDS at FST. -/
def writeCards (slot card : Nat) (records : List CardRecord) (s : State) : State × Reply :=
  withSlot slot s fun i x =>
    match x.state, x.design with
    | .loading, some d =>
      if card + records.length ≤ d.height ∧ records.all recordOk = true then
        accept { s with fst := s.fst.modSlot i (·.modDesign fun d => d.writeCards card records) } []
      else refuse s .badArgument
    | _, _ => refuse s .wrongState

/-- WRITE_CARDS (R24). -/
def execWriteCards (slot card : Nat) (records : List CardRecord) (s : State) : Host.Outcome State Fault Refusal :=
  .next (request .p .writeCards (cardsCheck records) (writeCards slot card records) s)

/-! ### Reading -/

/-- R25: the cells of a run as held. -/
def Design.readRun (d : Design) (card column count : Nat) : List (BitVec 4) :=
  (List.range count).map fun k =>
    d.cell ((card * d.width + column + k) / d.width) ((card * d.width + column + k) % d.width)

/-- R25: READ-FIGURE at FST. -/
def readFigure (slot card column count : Nat) (s : State) : State × Reply :=
  withSlot slot s fun _ x =>
    match x.state, x.design with
    | .empty, _ => refuse s .wrongState
    | _, none => refuse s .wrongState
    | _, some d =>
      if d.runFits card column count then accept s (bCells (d.readRun card column count)) else refuse s .badArgument

/-- READ_FIGURE (R25). -/
def execReadFigure (slot card column count : Nat) (s : State) : Host.Outcome State Fault Refusal :=
  .next (request .p .readFigure (countCheck 1 8000 count) (readFigure slot card column count) s)

/-- R25, R36: the records of a run; the effect map follows when the run covers the whole design. -/
def Design.readCards (d : Design) (card count : Nat) : List Byte :=
  ((List.range count).flatMap fun k => bCard (d.card (card + k))) ++
    if card = 0 ∧ count = d.height then bMap d.map else []

/-- R25: READ-CARDS at FST. -/
def readCards (slot card count : Nat) (s : State) : State × Reply :=
  withSlot slot s fun _ x =>
    match x.state, x.design with
    | .empty, _ => refuse s .wrongState
    | _, none => refuse s .wrongState
    | _, some d => if card + count ≤ d.height then accept s (d.readCards card count) else refuse s .badArgument

/-- READ_CARDS (R25). -/
def execReadCards (slot card count : Nat) (s : State) : Host.Outcome State Fault Refusal :=
  .next (request .p .readCards (countCheck 1 512 count) (readCards slot card count) s)

/-! ### Committing -/

/-- R26: COMMIT-DESIGN at FST: the scan begins; the answer comes at its end. -/
def commitDesign (slot : Nat) (s : State) : State × Reply :=
  withSlot slot s fun i x =>
    if x.state = .loading then ({ s with fst := s.fst.modSlot i fun x => { x with scanning := true } }, .later)
    else refuse s .wrongState

/-- COMMIT_DESIGN (R26). -/
def execCommitDesign (slot : Nat) (s : State) : Host.Outcome State Fault Refusal :=
  .next (request .p .commitDesign .good (commitDesign slot) s)

/-- The slot whose scan runs. -/
def Fst.scanSlot (f : Fst) : Option (Fin 8) := (List.finRange 8).find? fun i => (f.slots.get i).scanning

/-- R26: the scan of slot `i` ends. -/
def endScan (i : Fin 8) (s : State) : State :=
  match s.design i with
  | none => answer .p ⟨.checkFailed, []⟩ { s with fst := s.fst.modSlot i fun x => { x with scanning := false } }
  | some d =>
    match d.firstNonVoid with
    | some c =>
      answer .p ⟨.ok, b16 d.nonVoidCount ++ b16 c⟩ { s with fst := s.fst.modSlot i fun x =>
        { x with scanning := false, state := .valid, nonVoid := some d.nonVoidCount } }
    | none => answer .p ⟨.checkFailed, []⟩ { s with fst := s.fst.modSlot i fun x => { x with scanning := false } }

/-- COMMIT_SCAN_END (R26). With no scan running nothing ends (log 3). -/
def execCommitScanEnd (s : State) : Host.Outcome State Fault Refusal :=
  match s.fst.scanSlot with
  | none => .next s
  | some i => .next (endScan i s)

/-! ### Reopening and erasing -/

/-- R28: REOPEN-DESIGN at FST. -/
def reopenDesign (slot : Nat) (s : State) : State × Reply :=
  withSlot slot s fun i x =>
    if x.state ≠ .valid then refuse s .wrongState
    else if x.held then refuse s .held
    else accept { s with fst := s.fst.modSlot i fun x => { x with state := .loading, nonVoid := none } } []

/-- REOPEN_DESIGN (R28). -/
def execReopenDesign (slot : Nat) (s : State) : Host.Outcome State Fault Refusal :=
  .next (request .p .reopenDesign .good (reopenDesign slot) s)

/-- R19, R29: the slot is emptied and its blocks freed. -/
def Fst.erase (f : Fst) (i : Fin 8) : Fst :=
  let x := f.slots.get i
  { slots := upd f.slots i { x with state := .empty, design := none, blocks := [], nonVoid := none }
    owner := f.setOwner x.blocks none
    free := f.free + x.blocks.length }

/-- R29: ERASE-DESIGN at FST. -/
def eraseDesign (slot : Nat) (s : State) : State × Reply :=
  withSlot slot s fun i x =>
    match x.state with
    | .empty => accept s (b16 s.fst.free)
    | .loading => accept { s with fst := s.fst.erase i } (b16 (s.fst.erase i).free)
    | .valid =>
      if x.held then refuse s .held else accept { s with fst := s.fst.erase i } (b16 (s.fst.erase i).free)

/-- ERASE_DESIGN (R29). -/
def execEraseDesign (slot : Nat) (s : State) : Host.Outcome State Fault Refusal :=
  .next (request .p .eraseDesign .good (eraseDesign slot) s)

/-- READ_STORE (R35). -/
def execReadStore (s : State) : Host.Outcome State Fault Refusal :=
  .next (request .p .readStore .good (fun s => accept s (storeRecord s.fst)) s)

end Sys2Proof.Machine
end

