-- ==== Sys2Proof/Machine/Weft.lean ====
section
/-! DEFINITION. The commands of the weft unit (chapter 5): SET_FEEDER, RESTORE_FEEDER, FEEDER_STATE, SET_GROUP, READ_WEFT,
WEFT_PLAN and WEFT_REPORT. -/

namespace Sys2Proof.Machine

/-- R77: the failure limit, if one is carried, replaces the limit. -/
def setLimit (k : Option Nat) (s : State) : State :=
  match k with
  | some n => { s with wft := { s.wft with limit := n } }
  | none => s

/-- R77: a service choice acts on a feeder. -/
def serviceFeeder (f : Fin 8) (c : Service) (s : State) : State :=
  match c with
  | .into => changeFeeder f Feeder.goIn s
  | .out => changeFeeder f Feeder.goOut s
  | .keep => s

/-- R77: the failure limit carried lies in its range. -/
def limitOk : Option Nat → Bool
  | none => true
  | some n => decide (1 ≤ n) && decide (n ≤ 7)

/-- R77: SET-FEEDER at WFT. -/
def setFeeder (feeder : Nat) (service : Service) (limit : Option Nat) (s : State) : State × Reply :=
  match member 8 feeder with
  | none => refuse s .badArgument
  | some f => if limitOk limit then accept (serviceFeeder f service (setLimit limit s)) [] else refuse s .badArgument

/-- SET_FEEDER (R77). -/
def execSetFeeder (feeder : Nat) (service : Service) (limit : Option Nat) (s : State) :
    Host.Outcome State Fault Refusal :=
  .next (request .p .setFeeder .good (setFeeder feeder service limit) s)

/-- R78: FEEDER-STATE at WFT. -/
def feederState (feeder : Nat) (report : FeederReport) (s : State) : State × Reply :=
  match member 8 feeder with
  | none => refuse s .badArgument
  | some f => accept (changeFeeder f (match report with | .out => Feeder.goOut | .back => Feeder.goIn) s) []

/-- FEEDER_STATE (R78). -/
def execFeederState (feeder : Nat) (report : FeederReport) (s : State) : Host.Outcome State Fault Refusal :=
  .next (request .w .feederState .good (feederState feeder report) s)

/-- R79: RESTORE-FEEDER at WFT. -/
def restoreFeeder (feeder : Nat) (s : State) : State × Reply :=
  match member 8 feeder with
  | none => refuse s .badArgument
  | some f =>
    let x := s.wft.feeders.get f
    if x.state = .suspended ∨ (x.state = .off ∧ x.mark = true) then accept (changeFeeder f Feeder.restored s) []
    else refuse s .wrongState

/-- RESTORE_FEEDER (R79). -/
def execRestoreFeeder (feeder : Nat) (s : State) : Host.Outcome State Fault Refusal :=
  .next (request .p .restoreFeeder .good (restoreFeeder feeder) s)

/-- R80 step 3: the ranges of a group record. -/
def groupOk (primary partner : Option Nat) (mode : GroupMode) : Bool :=
  match primary, partner with
  | none, none => decide (mode = .single)
  | none, some _ => false
  | some p, none => decide (p < 8) && decide (mode = .single)
  | some p, some q => decide (p < 8) && decide (q < 8) && decide (p ≠ q)

/-- A feeder number as a feeder. -/
def feederOf (n : Option Nat) : Option (Fin 8) := n.bind (member 8)

/-- R80: SET-GROUP at WFT. -/
def setGroup (group : Nat) (primary partner : Option Nat) (mode : GroupMode) (s : State) : State × Reply :=
  match member 8 group with
  | none => refuse s .badArgument
  | some g =>
    if s.writable then
      if groupOk primary partner mode then
        accept (replanAfresh g { s with wft := { s.wft with
          groups := upd s.wft.groups g ⟨feederOf primary, feederOf partner, mode, .primaryNext⟩ } }) []
      else refuse s .badArgument
    else refuse s .wrongState

/-- SET_GROUP (R80). -/
def execSetGroup (group : Nat) (primary partner : Option Nat) (mode : GroupMode) (s : State) :
    Host.Outcome State Fault Refusal :=
  .next (request .p .setGroup .good (setGroup group primary partner mode) s)

/-- R95: a feeder after the clear set: its FAULTED flag clear, its total failures 0. -/
def Feeder.clear (f : Feeder) (faulted total : Bool) : Feeder :=
  { f with faulted := if faulted then false else f.faulted, total := if total then 0 else f.total }

/-- R95: the items of a clear set cleared. -/
def Wft.clear (w : Wft) (faulted totals : BitVec 8) (extra stray : Bool) : Wft :=
  { w with
    feeders := Vector.ofFn fun f => (w.feeders.get f).clear (faulted.getLsbD f.1) (totals.getLsbD f.1)
    extra := if extra then 0 else w.extra
    stray := if stray then 0 else w.stray }

/-- R95: READ-WEFT at WFT. -/
def readWeft (l : LinkId) (faulted totals : BitVec 8) (extra stray : Bool) (s : State) : State × Reply :=
  if l = .w ∧ ¬(faulted = 0 ∧ totals = 0 ∧ extra = false ∧ stray = false) then refuse s .badArgument
  else accept { s with wft := s.wft.clear faulted totals extra stray } (weftRecord s.wft)

/-- READ_WEFT (R95). -/
def execReadWeft (l : LinkId) (faulted totals : BitVec 8) (extra stray : Bool) (s : State) :
    Host.Outcome State Fault Refusal :=
  .next (request l .readWeft .good (readWeft l faulted totals extra stray) s)

/-- R94: the plan records that WEFT-PLAN returns. -/
def planRecords (s : State) : List (Nat × Plan) :=
  if s.wft.withheld then []
  else (s.pendingPlan.map fun p => (0, p)).toList ++ (s.xpe.staging.plan.map fun p => (1, p)).toList

/-- WEFT_PLAN (R94). -/
def execWeftPlan (s : State) : Host.Outcome State Fault Refusal :=
  .next (request .w .weftPlan .good (fun s => accept s (bList (fun r => bPlan r.1 r.2) (planRecords s))) s)

/-- R91: the report record after a report for the pending pick: INSERTED does not replace a failure of the same serial
(log 27). -/
def Wft.record (w : Wft) (n : Half) (o : Insertion) : Wft :=
  if w.failureFor n && !o.failure then w else { w with report := some ⟨n, o⟩ }

/-- R92: the entries of the history with the one of serial `n` marked SUSPECT. -/
def markSuspect (n : Half) (h : List HistEntry) : List HistEntry :=
  h.map fun e => if e.serial = n then { e with suspect := true } else e

/-- R92: a failure reported for a committed pick that is not SUSPECT. -/
def lateFailure (e : HistEntry) (s : State) : State :=
  let s := { s with seq := { s.seq with history := markSuspect e.serial s.seq.history } }
  trigger .weftFail
    (match e.feeder with
      | some f => { s with wft := s.wft.setFeeder f (s.wft.feeders.get f).fail }
      | none => s)

/-- R91: the pending pick carries this serial. -/
def State.pendingSerial (s : State) (n : Half) : Bool :=
  match s.pendingPlan with
  | some p => decide (p.serial = n)
  | none => false

/-- R91, R92: WEFT-REPORT at WFT. -/
def weftReport (n : Half) (o : Insertion) (s : State) : State × Reply :=
  if s.pendingSerial n then accept { s with wft := s.wft.record n o } []
  else
    match s.seq.history.find? fun e => decide (e.serial = n) with
    | none => refuse s .stale
    | some e => if o.failure && !e.suspect then accept (lateFailure e s) [] else accept s []

/-- WEFT_REPORT (R91, R92). -/
def execWeftReport (n : Half) (o : Insertion) (s : State) : Host.Outcome State Fault Refusal :=
  .next (request .w .weftReport .good (weftReport n o) s)

end Sys2Proof.Machine
end

