-- ==== Sys2Proof/Machine/Frames.lean ====
section
/-! DEFINITION. The characters of a link (R175, R176, R178) and the link events: FRAME_ERROR, UNKNOWN_REQUEST,
ENCODING_FAULT, OVERLAPPING_FRAME, BREAK and RESPONSE_SENT. The four rows that carry characters are one receiver: what
the characters are decides what comes of them (log 12). -/

namespace Sys2Proof.Machine

/-- The meaning of the request a good frame carries; a command that is no request is carried by no frame and has no
effect here. -/
def runRequest (i : Instr) (s : State) : Host.Outcome State Fault Refusal :=
  match i with
  | .identify l => execIdentify l s
  | .readNotices l c e => execReadNotices l c e s
  | .setNoticeMask l m => execSetNoticeMask l m s
  | .readStatus => execReadStatus s
  | .readiness => execReadiness s
  | .motionForward => execMotionForward s
  | .motionFind => execMotionFind s
  | .motionPosition => execMotionPosition s
  | .stop => execStop s
  | .setSchedule c => execSetSchedule c s
  | .readSchedule => execReadSchedule s
  | .defineDesign i w h m => execDefineDesign i w h m s
  | .writeFigure i c j v => execWriteFigure i c j v s
  | .writeCards i c r => execWriteCards i c r s
  | .readFigure i c j n => execReadFigure i c j n s
  | .readCards i c n => execReadCards i c n s
  | .commitDesign i => execCommitDesign i s
  | .reopenDesign i => execReopenDesign i s
  | .eraseDesign i => execEraseDesign i s
  | .readStore => execReadStore s
  | .defineWeave e w h l => execDefineWeave e w h l s
  | .readWeave e => execReadWeave e s
  | .setSection n r => execSetSection n r s
  | .setDeadList h => execSetDeadList h s
  | .addDeadHook h => execAddDeadHook h s
  | .removeDeadHook h => execRemoveDeadHook h s
  | .readHarness => execReadHarness s
  | .setFeeder f c k => execSetFeeder f c k s
  | .restoreFeeder f => execRestoreFeeder f s
  | .setGroup g p q m => execSetGroup g p q m s
  | .readWeft l f t e y => execReadWeft l f t e y s
  | .weftPlan => execWeftPlan s
  | .weftReport n o => execWeftReport n o s
  | .feederState f r => execFeederState f r s
  | .census => execCensus s
  | .hookTest => execHookTest s
  | .readModules c => execReadModules c s
  | .statusRefresh c => execStatusRefresh c s
  | .setEchoBudget t => execSetEchoBudget t s
  | .selectDesign i c => execSelectDesign i c s
  | .readHistory d n => execReadHistory d n s
  | .resetSequencer => execResetSequencer s
  | .queueChange i c k f => execQueueChange i c k f s
  | .cancelChanges => execCancelChanges s
  | .readChanges => execReadChanges s
  | .setMark k m v w n p => execSetMark k m v w n p s
  | .setGuard g => execSetGuard g s
  | .readGuard c => execReadGuard c s
  | .clearHalt => execClearHalt s
  | .clearGuardCount => execClearGuardCount s
  | .encoderStep _ _ => .next s
  | .encoderError _ => .next s
  | .settleTimerExpiry => .next s
  | .stallTimerExpiry => .next s
  | .wstopChange _ => .next s
  | .filterTimerExpiry => .next s
  | .arrivalEdge => .next s
  | .powerOnReset _ _ => .next s
  | .lineBreak _ => .next s
  | .frameError _ _ => .next s
  | .unknownRequest _ _ => .next s
  | .overlappingFrame _ _ => .next s
  | .responseSent _ => .next s
  | .commitScanEnd => .next s
  | .censusResult _ => .next s
  | .hookTestEnd _ => .next s
  | .refreshCompletion _ => .next s
  | .jobCompletion => .next s
  | .transferCompletion _ => .next s
  | .takeCompletion => .next s
  | .encodingFault _ _ => .next s

/-- A request refused by the link itself: it goes at once to SENDING with this status (R176, R177). -/
def refuseFrame (l : LinkId) (code : Byte) (st : Status) (s : State) : State :=
  answer l ⟨st, []⟩ (s.modLink l (Link.take code))

/-- R176: a frame that has ended in RECEIVING is checked; a good one goes to its owner. A FRAME-ERROR raises the link
error counter (R180). -/
def endFrame (l : LinkId) (a : Assembly) (s : State) : Host.Outcome State Fault Refusal :=
  match a.decode l with
  | .frameError => .next (answerFrameError l (s.modLink l (Link.take a.code)))
  | .unknownRequest => .next (refuseFrame l a.code .unknownRequest s)
  | .badArgument => .next (refuseFrame l a.code .badArgument s)
  | .request i => runRequest i s

/-- The frame in assembly; none is one without characters yet (log 29). -/
def Link.assembly (k : Link) : Assembly := k.frame.getD ⟨[], false⟩

/-- R175: the receiver takes one character. -/
def receiveChar (l : LinkId) (c : LineChar) (s : State) : Host.Outcome State Fault Refusal :=
  let a := (s.link l).assembly.add c
  match (s.link l).rx with
  | .hunting => .next (if c.byte = 0xA5 ∧ c.err = false then s.modLink l Link.startFrame else s)
  | .receiving => if a.ended then endFrame l a s else .next (s.modLink l fun k => { k with frame := some a })
  | .discarding => .next (s.modLink l fun k => if a.ended then k.endFrame else { k with frame := some a })

/-- The receiver takes a run of characters, one at a time (R175). -/
def receive (l : LinkId) : List LineChar → State → Host.Outcome State Fault Refusal
  | [], s => .next s
  | c :: cs, s =>
    match receiveChar l c s with
    | .next t => receive l cs t
    | .fault r => .fault r
    | .refused r => .refused r

/-- FRAME_ERROR (R176). -/
def execFrameError (l : LinkId) (cs : List LineChar) (s : State) : Host.Outcome State Fault Refusal := receive l cs s

/-- UNKNOWN_REQUEST (R176). -/
def execUnknownRequest (l : LinkId) (cs : List LineChar) (s : State) : Host.Outcome State Fault Refusal := receive l cs s

/-- OVERLAPPING_FRAME (R178). -/
def execOverlappingFrame (l : LinkId) (cs : List LineChar) (s : State) : Host.Outcome State Fault Refusal :=
  receive l cs s

/-- ENCODING_FAULT (R191). -/
def execEncodingFault (l : LinkId) (cs : List LineChar) (s : State) : Host.Outcome State Fault Refusal := receive l cs s

/-- R179: a break on a link: the frame in assembly is gone; a request AT-OWNER gets its response suppressed, a response
being sent is cut off. -/
def Link.breakLine (k : Link) : Link :=
  match k.endFrame.outstanding with
  | none => k.endFrame
  | some o =>
    match o.stage with
    | .atOwner => { k.endFrame with suppressed := true }
    | .sending => { k.endFrame with outstanding := none, response := none }

/-- BREAK (R179). -/
def execLineBreak (l : LinkId) (s : State) : Host.Outcome State Fault Refusal := .next (s.modLink l Link.breakLine)

/-- R177: the last character of the check has been sent. -/
def Link.sent (k : Link) : Link :=
  match k.outstanding with
  | none => k
  | some o =>
    match o.stage with
    | .atOwner => k
    | .sending => { k with outstanding := none, response := none }

/-- RESPONSE_SENT (R177). With nothing being sent nothing ends (log 3). -/
def execResponseSent (l : LinkId) (s : State) : Host.Outcome State Fault Refusal := .next (s.modLink l Link.sent)

end Sys2Proof.Machine
end

