-- ==== Sys2Proof/Machine/Dispatch.lean ====
section
/-! DEFINITION. The meaning of every command, one direct call an arm. -/

namespace Sys2Proof.Machine

/-- The effect of a command on everything but the queue. -/
def exec (i : Instr) (s : State) : Host.Outcome State Fault Refusal :=
  match i with
  | .encoderStep dir encz => Sys2Proof.Machine.execEncoderStep dir encz s
  | .encoderError encz => Sys2Proof.Machine.execEncoderError encz s
  | .settleTimerExpiry => Sys2Proof.Machine.execSettleTimerExpiry s
  | .stallTimerExpiry => Sys2Proof.Machine.execStallTimerExpiry s
  | .wstopChange level => Sys2Proof.Machine.execWstopChange level s
  | .filterTimerExpiry => Sys2Proof.Machine.execFilterTimerExpiry s
  | .arrivalEdge => Sys2Proof.Machine.execArrivalEdge s
  | .powerOnReset encz wstop => Sys2Proof.Machine.execPowerOnReset encz wstop s
  | .lineBreak link => Sys2Proof.Machine.execLineBreak link s
  | .frameError link chars => Sys2Proof.Machine.execFrameError link chars s
  | .unknownRequest link chars => Sys2Proof.Machine.execUnknownRequest link chars s
  | .overlappingFrame link chars => Sys2Proof.Machine.execOverlappingFrame link chars s
  | .responseSent link => Sys2Proof.Machine.execResponseSent link s
  | .identify link => Sys2Proof.Machine.execIdentify link s
  | .readNotices link clear linkErrors => Sys2Proof.Machine.execReadNotices link clear linkErrors s
  | .setNoticeMask link mask => Sys2Proof.Machine.execSetNoticeMask link mask s
  | .readStatus => Sys2Proof.Machine.execReadStatus s
  | .readiness => Sys2Proof.Machine.execReadiness s
  | .motionForward => Sys2Proof.Machine.execMotionForward s
  | .motionFind => Sys2Proof.Machine.execMotionFind s
  | .motionPosition => Sys2Proof.Machine.execMotionPosition s
  | .stop => Sys2Proof.Machine.execStop s
  | .setSchedule sched => Sys2Proof.Machine.execSetSchedule sched s
  | .readSchedule => Sys2Proof.Machine.execReadSchedule s
  | .defineDesign slot width height map => Sys2Proof.Machine.execDefineDesign slot width height map s
  | .writeFigure slot card column cells => Sys2Proof.Machine.execWriteFigure slot card column cells s
  | .writeCards slot card records => Sys2Proof.Machine.execWriteCards slot card records s
  | .readFigure slot card column count => Sys2Proof.Machine.execReadFigure slot card column count s
  | .readCards slot card count => Sys2Proof.Machine.execReadCards slot card count s
  | .commitDesign slot => Sys2Proof.Machine.execCommitDesign slot s
  | .commitScanEnd => Sys2Proof.Machine.execCommitScanEnd s
  | .reopenDesign slot => Sys2Proof.Machine.execReopenDesign slot s
  | .eraseDesign slot => Sys2Proof.Machine.execEraseDesign slot s
  | .readStore => Sys2Proof.Machine.execReadStore s
  | .defineWeave entry width height lifts => Sys2Proof.Machine.execDefineWeave entry width height lifts s
  | .readWeave entry => Sys2Proof.Machine.execReadWeave entry s
  | .setSection number rec => Sys2Proof.Machine.execSetSection number rec s
  | .setDeadList hooks => Sys2Proof.Machine.execSetDeadList hooks s
  | .addDeadHook hook => Sys2Proof.Machine.execAddDeadHook hook s
  | .removeDeadHook hook => Sys2Proof.Machine.execRemoveDeadHook hook s
  | .readHarness => Sys2Proof.Machine.execReadHarness s
  | .setFeeder feeder service limit => Sys2Proof.Machine.execSetFeeder feeder service limit s
  | .restoreFeeder feeder => Sys2Proof.Machine.execRestoreFeeder feeder s
  | .setGroup group primary partner mode => Sys2Proof.Machine.execSetGroup group primary partner mode s
  | .readWeft link faulted totals extra stray => Sys2Proof.Machine.execReadWeft link faulted totals extra stray s
  | .weftPlan => Sys2Proof.Machine.execWeftPlan s
  | .weftReport serial outcome => Sys2Proof.Machine.execWeftReport serial outcome s
  | .feederState feeder report => Sys2Proof.Machine.execFeederState feeder report s
  | .census => Sys2Proof.Machine.execCensus s
  | .censusResult marker => Sys2Proof.Machine.execCensusResult marker s
  | .hookTest => Sys2Proof.Machine.execHookTest s
  | .hookTestEnd stages => Sys2Proof.Machine.execHookTestEnd stages s
  | .readModules clear => Sys2Proof.Machine.execReadModules clear s
  | .statusRefresh clear => Sys2Proof.Machine.execStatusRefresh clear s
  | .refreshCompletion statuses => Sys2Proof.Machine.execRefreshCompletion statuses s
  | .setEchoBudget threshold => Sys2Proof.Machine.execSetEchoBudget threshold s
  | .selectDesign slot card => Sys2Proof.Machine.execSelectDesign slot card s
  | .readHistory depth count => Sys2Proof.Machine.execReadHistory depth count s
  | .resetSequencer => Sys2Proof.Machine.execResetSequencer s
  | .queueChange slot card condition phaseReset => Sys2Proof.Machine.execQueueChange slot card condition phaseReset s
  | .cancelChanges => Sys2Proof.Machine.execCancelChanges s
  | .readChanges => Sys2Proof.Machine.execReadChanges s
  | .setMark comparator mode value mask notice stop => Sys2Proof.Machine.execSetMark comparator mode value mask notice stop s
  | .setGuard setting => Sys2Proof.Machine.execSetGuard setting s
  | .readGuard clear => Sys2Proof.Machine.execReadGuard clear s
  | .clearHalt => Sys2Proof.Machine.execClearHalt s
  | .clearGuardCount => Sys2Proof.Machine.execClearGuardCount s
  | .jobCompletion => Sys2Proof.Machine.execJobCompletion s
  | .transferCompletion echo => Sys2Proof.Machine.execTransferCompletion echo s
  | .takeCompletion => Sys2Proof.Machine.execTakeCompletion s
  | .encodingFault link chars => Sys2Proof.Machine.execEncodingFault link chars s

end Sys2Proof.Machine
end

