-- ==== Sys2Proof/Safety.lean ====
section
/-! DEFINITION. The words of the claims: a link that takes a request, the state in which a request is answered, and the
invariants of the block, each named after the rule that asks for it. -/

namespace Sys2Proof

/-! ### Requests and responses -/

/-- The link and the request of a command that is a request; no other command has one. -/
def Instr.asRequest : Instr → Option (LinkId × Request)
  | .identify l => some (l, .identify)
  | .readNotices l _ _ => some (l, .readNotices)
  | .setNoticeMask l _ => some (l, .setNoticeMask)
  | .readStatus => some (.p, .readStatus)
  | .readiness => some (.d, .readiness)
  | .motionForward => some (.d, .motion)
  | .motionFind => some (.d, .motion)
  | .motionPosition => some (.d, .motion)
  | .stop => some (.d, .motion)
  | .setSchedule _ => some (.p, .setSchedule)
  | .readSchedule => some (.p, .readSchedule)
  | .defineDesign _ _ _ _ => some (.p, .defineDesign)
  | .writeFigure _ _ _ _ => some (.p, .writeFigure)
  | .writeCards _ _ _ => some (.p, .writeCards)
  | .readFigure _ _ _ _ => some (.p, .readFigure)
  | .readCards _ _ _ => some (.p, .readCards)
  | .commitDesign _ => some (.p, .commitDesign)
  | .reopenDesign _ => some (.p, .reopenDesign)
  | .eraseDesign _ => some (.p, .eraseDesign)
  | .readStore => some (.p, .readStore)
  | .defineWeave _ _ _ _ => some (.p, .defineWeave)
  | .readWeave _ => some (.p, .readWeave)
  | .setSection _ _ => some (.p, .setSection)
  | .setDeadList _ => some (.p, .setDeadList)
  | .addDeadHook _ => some (.p, .addDeadHook)
  | .removeDeadHook _ => some (.p, .removeDeadHook)
  | .readHarness => some (.p, .readHarness)
  | .setFeeder _ _ _ => some (.p, .setFeeder)
  | .restoreFeeder _ => some (.p, .restoreFeeder)
  | .setGroup _ _ _ _ => some (.p, .setGroup)
  | .readWeft l _ _ _ _ => some (l, .readWeft)
  | .weftPlan => some (.w, .weftPlan)
  | .weftReport _ _ => some (.w, .weftReport)
  | .feederState _ _ => some (.w, .feederState)
  | .census => some (.p, .census)
  | .hookTest => some (.p, .hookTest)
  | .readModules _ => some (.p, .readModules)
  | .statusRefresh _ => some (.p, .readModules)
  | .setEchoBudget _ => some (.p, .setEchoBudget)
  | .selectDesign _ _ => some (.p, .selectDesign)
  | .readHistory _ _ => some (.p, .readHistory)
  | .resetSequencer => some (.p, .resetSequencer)
  | .queueChange _ _ _ _ => some (.p, .queueChange)
  | .cancelChanges => some (.p, .cancelChanges)
  | .readChanges => some (.p, .readChanges)
  | .setMark _ _ _ _ _ _ => some (.p, .setMark)
  | .setGuard _ => some (.p, .setGuard)
  | .readGuard _ => some (.p, .readGuard)
  | .clearHalt => some (.p, .clearHalt)
  | .clearGuardCount => some (.p, .clearGuardCount)
  | _ => none

namespace Machine

/-- The link takes a request now: the frame that ends is not an overlapping one (R175, R178), nothing is outstanding and
no response is suppressed (R179). -/
def Link.isOpen (k : Link) : Bool := decide (k.rx ≠ .discarding) && decide (k.outstanding = none) && !k.suppressed

/-- The request is with its owner, which has not answered yet: AT-OWNER (R177). -/
def State.awaited (s : State) (l : LinkId) (r : Request) : State :=
  s.modLink l fun k => { k with rx := .hunting, frame := none, outstanding := some ⟨r.code, .atOwner⟩ }

/-- The request has been answered and its response is being sent: SENDING (R177). -/
def State.responded (s : State) (l : LinkId) (r : Request) (st : Status) (payload : List Byte) : State :=
  s.modLink l fun k =>
    { k with rx := .hunting, frame := none, outstanding := some ⟨r.code, .sending⟩, response := some ⟨st, payload⟩ }

/-- An owner answers later: the response is sent, unless a break has suppressed it (R177, R179); the receiver goes on. -/
def State.answeredLate (s : State) (l : LinkId) (st : Status) (payload : List Byte) : State :=
  s.modLink l fun k =>
    match k.outstanding with
    | none => k
    | some o =>
      if k.suppressed then { k with outstanding := none, response := none, suppressed := false }
      else { k with outstanding := some ⟨o.code, .sending⟩, response := some ⟨st, payload⟩ }

/-- The link itself refuses a frame of this code: the refusal is being sent (R176, R177). -/
def State.refusedFrame (s : State) (l : LinkId) (code : Byte) (st : Status) : State :=
  s.modLink l fun k =>
    { k with rx := .hunting, frame := none, outstanding := some ⟨code, .sending⟩, response := some ⟨st, []⟩ }

/-- The characters of a request frame: the start character, the code, the payload length, the payload and the check, each
low byte first (R189, R190), received without a character error. -/
def frameChars (code : Byte) (payload : List Byte) (check : BitVec 16) : List LineChar :=
  (0xA5 :: code :: b16 payload.length ++ payload ++ b16 check.toNat).map fun b => ⟨b, false⟩

/-- R190: the check of a request frame. -/
def frameCheck (code : Byte) (payload : List Byte) : BitVec 16 := crc16 (code :: b16 payload.length ++ payload)

/-! ### Presenting and guard entry -/

/-- A TAKE is in progress (R98). -/
abbrev State.takes (s : State) : Prop := ∃ n, s.hcc.transfer = .taking n

/-- READY as R118 has it, with no motion grant in force: the cursor pick is latched, nothing is staged, no job and no bus
activity runs. -/
def State.idleReady (s : State) : Prop :=
  s.seq.state = .ready ∧ s.seq.grant = .none ∧ s.seq.present = none ∧ s.xpe = ⟨none, .empty⟩ ∧ s.hcc.transfer = .idle ∧
    s.latchedBelongs = true

/-- In `t` a PRESENT job that expands anew has just been ordered for the pick of cursor record `c` (R62, R69): the job, its
snapshot, the plan and its STAGED hold; the modules and their record are as in `s`. -/
def State.presentBegun (s t : State) (c : Cursor) : Prop :=
  t.seq.state = .presenting ∧ t.seq.cursor = some c ∧ t.seq.present = some ⟨c, .expanding⟩ ∧
    t.xpe.job = some ⟨.present, c, 128 * s.hcc.census⟩ ∧
    (∃ p : Plan, t.xpe.staging = .filling p ∧ p.cursor = c ∧ p.mark = (t.cardOf c).mark ∧ p.complete = false ∧
      p.echoMismatch = false ∧ (p.feeder = none ∨ ∃ f, p.feeder = some f ∧ (t.wft.feeders.get f).state = .ready)) ∧
    0 < (t.slot c.slot).refs.staged ∧ t.hcc = s.hcc

/-- The guard entry of R164, R165 and R139 for trigger `tr`, from `s` to `t`. -/
structure State.guardEntered (tr : Trigger) (s t : State) : Prop where
  /-- Step 1: HALTED when the trigger counts and the count has reached a limit above 0. -/
  state : t.seq.state =
    if s.grd.counts.get tr.idx = true ∧ 0 < s.grd.limit ∧ s.grd.limit ≤ s.grd.count then .halted else .guard
  count : t.grd.count =
    if s.grd.counts.get tr.idx = true ∧ (s.grd.limit = 0 ∨ s.grd.count < s.grd.limit) then
      (if s.grd.count < 15 then s.grd.count + 1 else s.grd.count)
    else s.grd.count
  /-- Step 2. -/
  causes : ∀ x, x ∈ t.grd.causes ↔ x = tr ∨ x ∈ s.grd.causes
  entry : t.grd.entry = some ⟨tr, s.seq.state, s.seq.cursor.map (·.serial), s.ang.angle, decide (t.seq.state = .halted)⟩
  run : t.grd.run = 0
  /-- Step 3. -/
  window : t.wft.window = none ∧ t.wft.capture = none ∧ t.wft.report = none ∧ t.wft.withheld = true ∧
    t.wft.verdict = s.wft.verdict
  /-- Step 4: unless HCC is TAKING (R110). -/
  staging : s.hcc.isTaking = false → t.xpe = ⟨none, .empty⟩
  /-- Step 5. -/
  hold : s.grd.shed = .hold → t.hcc.latched = s.hcc.latched ∧ (s.hcc.isTaking = false → t.hcc.transfer = .idle) ∧
    (s.hcc.isTaking = true → t.hcc.transfer = s.hcc.transfer)
  close : s.grd.shed = .close →
    (s.hcc.isTaking = false → t.hcc.latched = .closed ∧ t.hcc.transfer = .idle ∧ t.hcc.lastStrobe = some .drop) ∧
    (s.hcc.isTaking = true → t.hcc.latched = s.hcc.latched ∧ t.hcc.transfer = s.hcc.transfer ∧ t.hcc.dropHeld = true)
  /-- Step 6. -/
  grant : t.seq.grant = .none ∧ t.seq.coasting = true ∧ t.seq.runDown = s.seq.runDown ∧ t.seq.present = none
  /-- R139: what waited for a TAKE completion is dropped (a find step; with it a PRESENT order: log 16). -/
  dropped : t.seq.findWaiting = 0 ∧ t.seq.presentWaiting = false
  stall : t.ang.stallWatch = .off ∧ t.ang.stallTimer = none
  /-- Step 7. -/
  stop : t.grd.stopRequest = true
  /-- Step 8. -/
  notices : .guardEntered ∈ t.wlk.notices ∧ .planChanged ∈ t.wlk.notices ∧
    (t.seq.state = .guard → .guardEntered ∈ t.plk.notices ∧ .guardEntered ∈ t.dlk.notices) ∧
    (t.seq.state = .halted → .halted ∈ t.plk.notices ∧ .halted ∈ t.dlk.notices) ∧
    (s.seq.state = .ready → .readyChanged ∈ t.dlk.notices)
  /-- "The cursor, the serial counter, the history, the change queue, the comparators and the woven-pick counter are not
  touched by the entry." -/
  kept : t.seq.cursor = s.seq.cursor ∧ t.seq.serial = s.seq.serial ∧ t.seq.history = s.seq.history ∧
    t.seq.woven = s.seq.woven ∧ t.seq.representOwed = s.seq.representOwed ∧ t.chu = s.chu ∧ t.hmp = s.hmp ∧ t.wlb = s.wlb ∧ t.fst.owner = s.fst.owner ∧
    t.fst.free = s.fst.free ∧ t.hcc.budget = s.hcc.budget ∧ t.hcc.census = s.hcc.census ∧ t.wft.feeders = s.wft.feeders ∧
    t.ang.count = s.ang.count ∧ t.ang.armed = s.ang.armed ∧ t.draws = s.draws ∧ t.pending = s.pending

/-- R140, R165: a guard exit goes to READY when the latched pick belongs to the cursor pick and no DROP-ALL is held for
the end of a TAKE. -/
abbrev State.exitsToReady (s : State) : Prop := s.latchedBelongs = true ∧ s.hcc.dropHeld = false

/-- The exit from guard of R140 and R170, from `s` to `t`, with the presentation of R52 that follows an exit to READY while a
map write is owed it (log 40). `run` and `count` are the run counter and the guard count that the exit finds: it leaves
both. -/
structure State.guardLeft (s : State) (run count : Nat) (t : State) : Prop where
  state : t.seq.state = if s.exitsToReady ∧ s.seq.representOwed = .no then .ready else .presenting
  /-- The entry effects of R118, also where R52's presentation follows at once. -/
  ready : s.exitsToReady → .readyChanged ∈ t.dlk.notices ∧ .planChanged ∈ t.wlk.notices ∧ t.wft.withheld = false
  /-- R69: the PRESENT job ordered for the cursor pick; nothing staged belongs to it (`presentSound.guarded`). -/
  presents : ∀ c, t.seq.state = .presenting → ¬s.takes → s.seq.cursor = some c → s.stagedBelongs = false →
    t.seq.present = some ⟨c, .expanding⟩ ∧ t.xpe.job = some ⟨.present, c, 128 * s.hcc.census⟩
  /-- R71: while a TAKE is in progress the order waits for its completion (log 16). -/
  waits : t.seq.state = .presenting → s.takes → t.seq.presentWaiting = true ∧ t.hcc.transfer = s.hcc.transfer
  cleared : t.grd.causes = [] ∧ t.grd.stopRequest = false ∧ t.seq.coasting = false
  notices : .guardLeft ∈ t.plk.notices ∧ .guardLeft ∈ t.dlk.notices
  kept : t.seq.cursor = s.seq.cursor ∧ t.seq.history = s.seq.history ∧ t.seq.woven = s.seq.woven ∧ t.chu = s.chu ∧
    t.grd.entry = s.grd.entry ∧ t.seq.representOwed = s.seq.representOwed ∧ t.hcc.latched = s.hcc.latched
  /-- R170: "The guard count, the run counter and the entry record stay as they are." -/
  counts : t.grd.run = run ∧ t.grd.count = count

/-! ### Feeders and plans -/

/-- A request `r` on link `l` has made `x` of feeder `f` and `k` of the failure limit: the other feeders, the cursor,
the history, the change unit, the map and the library are as before; a change of the feeder's state is noticed (R76);
without one nothing else has changed. -/
structure State.feederBecomes (s t : State) (l : LinkId) (r : Request) (f : Fin 8) (x : Feeder) (k : Nat) : Prop where
  feeder : t.wft.feeders.get f = x
  others : ∀ g, g ≠ f → t.wft.feeders.get g = s.wft.feeders.get g
  limit : t.wft.limit = k
  notice : x.state ≠ (s.wft.feeders.get f).state → .feederStateChanged ∈ t.plk.notices
  quiet : x.state = (s.wft.feeders.get f).state →
    t = ({ s with wft := { s.wft with feeders := upd s.wft.feeders f x, limit := k } }).responded l r .ok []
  response : (t.link l).response = some ⟨.ok, []⟩
  kept : t.seq.cursor = s.seq.cursor ∧ t.seq.history = s.seq.history ∧ t.chu = s.chu ∧ t.hmp = s.hmp ∧ t.wlb = s.wlb

/-- The states of R14, R48, R80, R125, R150: UNLOADED, or READY with no motion grant in force. -/
abbrev State.openToSettings (s : State) : Prop := s.seq.state = .unloaded ∨ s.seq.state = .ready ∧ s.seq.grant = .none

/-- The states that a trigger can move into guard (R161). -/
abbrev SeqState.guarded (q : SeqState) : Prop :=
  q = .presenting ∨ q = .ready ∨ q = .running ∨ q = .stopping ∨ q = .finding

/-! ### Re-planning -/

/-- R83: the group of a plan set back to the alternation state that its planning found. -/
def Wft.foundBy (w : Wft) : Option PlannedGroup → Wft
  | none => w
  | some g => { w with groups := upd w.groups g.group { w.groups.get g.group with alternation := g.before } }

/-- R84: the pending plan and the staged plan name the same colour group. -/
def State.plansShare (s : State) : Prop :=
  ∃ p q g, s.pendingPlan = some p ∧ s.xpe.staging.plan = some q ∧ p.group.map (·.group) = some g ∧
    q.group.map (·.group) = some g

/-- R84, R85, R83: from `u` to `v` the pending plan, if `pending`, and then the staged plan, if `staged`, are planned again
by the table of R81, each from its own card. The group is set back first to what the plan recorded; of two plans of one
group the staged one finds the group as the pending one left it. Cursor record, mark, completeness and mismatch flag of a
plan are kept. -/
def State.plansAgain (u : State) (pending staged : Prop) (v : State) : Prop :=
  ∃ x : State, (¬pending → x = u) ∧
    (∀ p image, pending → u.hcc.latched = .pick p image → ∃ c : Choice,
      c = (u.wft.foundBy p.group).choose (u.cardOf p.cursor).weft ∧
      x = { u with
        wft := c.wft
        hcc := { u.hcc with latched := .pick { p with feeder := c.feeder, group := c.group } image } }) ∧
    (¬staged → v = x) ∧
    (∀ q, staged → u.xpe.staging.plan = some q → ∃ c : Choice,
      (pending ∧ u.plansShare → c = x.wft.choose (u.cardOf q.cursor).weft) ∧
      (¬(pending ∧ u.plansShare) → c = (x.wft.foundBy q.group).choose (u.cardOf q.cursor).weft) ∧
      v = { x with
        wft := c.wft
        xpe := { u.xpe with staging := (match u.xpe.staging with
          | .empty => .empty
          | .filling _ => .filling { q with feeder := c.feeder, group := c.group }
          | .complete _ image => .complete { q with feeder := c.feeder, group := c.group } image) } })

/-- R84, R85, R81, R118: one event plans again the plans named, from `u` to `t`, and raises PLAN-CHANGED once;
READY-CHANGED when the pending plan changes between NONE and a feeder in READY; FEEDER-UNAVAILABLE when a plan planned
again comes out NONE in RUNNING (once for the event: log 14). -/
structure State.replansTo (u : State) (pending staged : Prop) (t : State) : Prop where
  nothing : ¬pending → ¬staged → t = u
  again : pending ∨ staged → ∃ v z : State, u.plansAgain pending staged v ∧
    (u.seq.state = .ready ∧ pending ∧ ¬(u.pendingFeeder = none ↔ v.pendingFeeder = none) →
      z = raise .d .readyChanged (raise .w .planChanged v)) ∧
    (¬(u.seq.state = .ready ∧ pending ∧ ¬(u.pendingFeeder = none ↔ v.pendingFeeder = none)) →
      z = raise .w .planChanged v) ∧
    (u.seq.state = .running ∧ (pending ∧ v.pendingFeeder = none ∨
        staged ∧ ∃ q, v.xpe.staging.plan = some q ∧ q.feeder = none) → t = trigger .feederUnavailable z) ∧
    (¬(u.seq.state = .running ∧ (pending ∧ v.pendingFeeder = none ∨
        staged ∧ ∃ q, v.xpe.staging.plan = some q ∧ q.feeder = none)) → t = z)

/-- The pending plan names feeder `f`, or NONE. -/
abbrev State.pendingNames (s : State) (f : Option (Fin 8)) : Prop := ∃ p, s.pendingPlan = some p ∧ p.feeder = f

/-- The staged plan names feeder `f`, or NONE. -/
abbrev State.stagedNames (s : State) (f : Option (Fin 8)) : Prop := ∃ q, s.xpe.staging.plan = some q ∧ q.feeder = f

/-- R84: the re-plan of an event, taken in `u`, that takes feeder `f` out of READY: of each plan that names it, and of the
staged plan when the pending plan is planned again and both name one group. -/
def State.replansFrom (u : State) (f : Fin 8) (t : State) : Prop :=
  u.replansTo (u.pendingNames (some f)) (u.stagedNames (some f) ∨ u.pendingNames (some f) ∧ u.plansShare) t

/-- R85: the fill of an event, taken in `u`, that brings a feeder into READY: each plan that names NONE is planned again. -/
def State.fillsPlans (u : State) (t : State) : Prop := u.replansTo (u.pendingNames none) (u.stagedNames none) t

/-! ### The end of a window -/

/-- R93: a FAIL or MISSING verdict is accounted to the planned feeder `f`, from `u`, in which the trigger has been taken, to
`t`. Without a planned feeder nothing is accounted. A READY feeder whose count reaches the limit is SUSPENDED, and the plans are
re-planned, so that none names it afterwards (R84). -/
structure State.failureAccounted (u : State) (f : Option (Fin 8)) (t : State) : Prop where
  noFeeder : f = none → t = u
  tallied : ∀ (i : Fin 8) (x : Feeder), f = some i → x = { u.wft.feeders.get i with
      failures := (if (u.wft.feeders.get i).failures < 7 then (u.wft.feeders.get i).failures + 1
        else (u.wft.feeders.get i).failures)
      total := (if (u.wft.feeders.get i).total < 65535 then (u.wft.feeders.get i).total + 1 else (u.wft.feeders.get i).total)
      faulted := true } →
    (¬(x.state = .ready ∧ u.wft.limit ≤ x.failures) →
      t = { u with wft := { u.wft with feeders := upd u.wft.feeders i x } }) ∧
    (x.state = .ready → u.wft.limit ≤ x.failures →
      (raise .p .feederStateChanged (raise .p .feederSuspended { u with wft := { u.wft with
        feeders := upd u.wft.feeders i { x with state := .suspended, mark := true } } })).replansFrom i t ∧
      t.wft.feeders = upd u.wft.feeders i { x with state := .suspended, mark := true } ∧
      .feederSuspended ∈ t.plk.notices ∧ .feederStateChanged ∈ t.plk.notices ∧
      (∀ p, t.pendingPlan = some p → p.feeder ≠ some i) ∧ (∀ p, t.xpe.staging.plan = some p → p.feeder ≠ some i) ∧
      ((∃ p, (u.pendingPlan = some p ∨ u.xpe.staging.plan = some p) ∧ p.feeder = some i) → .planChanged ∈ t.wlk.notices))

/-- R128 with R88, R93, R130, R151 to R154, R168: a COMMIT verdict on the window of serial `n`, with an arrival captured at
`angle`, commits the pick of plan `p`, from `s` to `t`: the verdict record, the history entry, the woven count, the
comparators, the head of the change queue, the cursor; and the run counter and the guard count by R168, before a MARK-STOP.
`stops` says whether a comparator with STOP hit. -/
def State.pickCommitted (s t : State) (p : Plan) (n : Half) (angle : Nat) (stops : Bool) : Prop :=
  ∃ (e : HistEntry) (hits : List (Fin 4)) (applies : Bool) (outcome : Option Insertion),
    (∀ k, k ∈ hits ↔ p.cursor.rep = 0 ∧
      (match (s.chu.comps.get k).mode with
        | .off => False
        | .matching => p.mark &&& (s.chu.comps.get k).mask = (s.chu.comps.get k).value &&& (s.chu.comps.get k).mask
        | .any => p.mark &&& (s.chu.comps.get k).mask ≠ 0)) ∧
    (stops = true ↔ ∃ k ∈ hits, (s.chu.comps.get k).stop = true) ∧
    outcome = (if s.wft.report = some ⟨n, .inserted⟩ then some .inserted else none) ∧
    t.wft.verdict = some ⟨n, .commit, p.feeder, some angle, outcome⟩ ∧ t.wft.window = none ∧ t.wft.report = none ∧
    (∀ f, p.feeder = some f → t.wft.feeders.get f = { s.wft.feeders.get f with failures := 0 }) ∧
    t.seq.history = (s.seq.history ++ [e]).drop (s.seq.history.length + 1 - 64) ∧ t.seq.woven = s.seq.woven + 1 ∧
    e.cursor = p.cursor ∧ e.feeder = p.feeder ∧ e.group = p.group ∧ e.hits = hits ∧ e.echoMismatch = p.echoMismatch ∧
    e.suspect = false ∧ t.seq.serial = p.cursor.serial + 1 ∧
    (∀ k, (t.chu.comps.get k) = { s.chu.comps.get k with
      hits := if k ∈ hits ∧ (s.chu.comps.get k).hits < 65535 then (s.chu.comps.get k).hits + 1
        else (s.chu.comps.get k).hits }) ∧
    (s.chu.queue = [] → e.counted = none ∧ e.applied = none ∧ t.chu.queue = [] ∧
      t.seq.cursor = some (s.advance p.cursor).1) ∧
    (∀ c r, s.chu.queue = c :: r →
      (applies = true ↔ c.condition = .nextPick ∨ (c.condition = .atRepeatEnd ∧ (s.advance p.cursor).2 = true) ∨
        (∃ k ∈ hits, c.condition = .atMark k.1) ∨
        ∃ m x, c.condition = .atCount m ∧ c.remaining = some x ∧ x ≤ 1) ∧
      ((∃ m, c.condition = .atCount m) → e.counted = some c.id) ∧
      ((∀ m, c.condition ≠ .atCount m) → e.counted = none) ∧
      (applies = true → e.applied = some ⟨c.id, c.slot, c.card, c.condition, c.phaseReset⟩ ∧ t.chu.queue = r ∧
        .changeApplied ∈ t.plk.notices ∧ ∃ cur : Cursor, t.seq.cursor = some cur ∧ cur.slot = c.slot ∧ cur.rep = 0 ∧
          cur.pass = 0 ∧ cur.phase = (if c.phaseReset then 0 else p.cursor.phase + 1) ∧
          cur.serial = p.cursor.serial + 1 ∧ ∀ d, s.design c.slot = some d → cur.card = (d.forward c.card).1) ∧
      (applies = false → e.applied = none ∧ t.seq.cursor = some (s.advance p.cursor).1 ∧
        ((∀ m, c.condition ≠ .atCount m) → t.chu.queue = c :: r) ∧
        (∀ m x, c.condition = .atCount m → c.remaining = some x →
          t.chu.queue = { c with remaining := some (x - 1) } :: r))) ∧
    ((∃ k ∈ hits, (s.chu.comps.get k).notice = true) → .markHit ∈ t.plk.notices) ∧
    ∃ run count : Nat,
      run = (if s.grd.autoClear = 0 then s.grd.run
        else if s.grd.autoClear.toNat ≤ (if s.grd.run < 65535 then s.grd.run + 1 else s.grd.run) then 0
        else if s.grd.run < 65535 then s.grd.run + 1 else s.grd.run) ∧
      count = (if s.grd.autoClear ≠ 0 ∧ s.grd.autoClear.toNat ≤ (if s.grd.run < 65535 then s.grd.run + 1 else s.grd.run)
        then 0 else s.grd.count) ∧
      (stops = false ∨ s.grd.isEnabled .markStop = false → t.grd.run = run ∧ t.grd.count = count) ∧
      (stops = true → s.grd.isEnabled .markStop = true → t.grd.run = 0 ∧
        t.grd.count = (if s.grd.counts.get Trigger.markStop.idx = true ∧ (s.grd.limit = 0 ∨ count < s.grd.limit) then
          (if count < 15 then count + 1 else count) else count) ∧
        t.seq.state = (if s.grd.counts.get Trigger.markStop.idx = true ∧ 0 < s.grd.limit ∧ s.grd.limit ≤ count then .halted
          else .guard))

/-- R132: what SEQ makes of rest in STOPPING, from `u`, in which run-down is clear, to `t`: the verdict on an open window
(R89), then READY when the cursor pick is latched and nothing is staged, else PRESENTING with a PRESENT job that reuses a
complete staged pick, adopts a scheduled job, or expands anew (R69). -/
structure State.restTaken (u t : State) : Prop where
  ready : u.wft.window = none → u.latchedBelongs = true → u.xpe = ⟨none, .empty⟩ →
    t = raise .w .planChanged (raise .d .readyChanged
      { u with seq := { u.seq with state := .ready }, wft := { u.wft with withheld := false } })
  waits : u.wft.window = none → ¬(u.latchedBelongs = true ∧ u.xpe = ⟨none, .empty⟩) → u.takes →
    t = { u with seq := { u.seq with state := .presenting, presentWaiting := true } }
  reuses : ∀ p image, u.wft.window = none → u.seq.present = none → u.xpe.staging = .complete p image →
    u.seq.cursor = some p.cursor → ¬u.takes → u.hcc.transfer ≠ .refreshing → u.hcc.census ≠ 0 →
    t = { u with
      seq := { u.seq with state := .presenting, present := some ⟨p.cursor, .transferring⟩ }
      hcc := { u.hcc with transfer := .shifting p.cursor.serial } }
  adopts : ∀ p c k, u.wft.window = none → u.seq.present = none → u.xpe = ⟨some ⟨.schedule, c, k⟩, .filling p⟩ →
    u.seq.cursor = some p.cursor → ¬u.takes →
    t = { u with
      seq := { u.seq with state := .presenting, present := some ⟨p.cursor, .expanding⟩ }
      xpe := ⟨some ⟨.present, c, k⟩, .filling p⟩ }
  expands : ∀ c, u.wft.window = none → u.stagedBelongs = false → u.seq.cursor = some c → ¬u.takes →
    ¬(u.latchedBelongs = true ∧ u.xpe = ⟨none, .empty⟩) →
    t.seq.state = .presenting ∧ t.seq.present = some ⟨c, .expanding⟩ ∧
      t.xpe.job = some ⟨.present, c, 128 * u.hcc.census⟩ ∧ t.hcc.latched = u.hcc.latched ∧ t.seq.cursor = some c ∧
      t.seq.history = u.seq.history ∧ (u.xpe = ⟨none, .empty⟩ → u.presentBegun t c)
  interrupted : ∀ n, u.wft.window = some n → u.wft.capture = none → (∀ x, u.wft.report = some ⟨n, x⟩ → x = .inserted) →
    t.seq.state = (if u.latchedBelongs = true ∧ u.xpe = ⟨none, .empty⟩ then .ready else .presenting) ∧
      t.wft.window = none ∧ (∃ o, t.wft.verdict = some ⟨n, .interrupted, u.pendingFeeder, none, o⟩) ∧
      .windowInterrupted ∈ t.plk.notices ∧ .windowInterrupted ∈ t.wlk.notices ∧ t.seq.cursor = u.seq.cursor ∧
      t.seq.history = u.seq.history ∧ t.wft.feeders = u.wft.feeders
  failed : ∀ n x, u.wft.window = some n → u.wft.report = some ⟨n, x⟩ → x ≠ .inserted → u.grd.isEnabled .weftFail = true →
    ∃ v : State, v = trigger .weftFail { u with wft := { u.wft with
        window := none, report := none, verdict := some ⟨n, .fail, u.pendingFeeder, u.wft.capture, some x⟩ } } ∧
      v.failureAccounted u.pendingFeeder t
  committed : ∀ p n angle, u.wft.window = some n → u.wft.capture = some angle →
    (∀ x, u.wft.report = some ⟨n, x⟩ → x = .inserted) → u.pendingPlan = some p → ∃ stops : Bool,
      u.pickCommitted t p n angle stops ∧
      (stops = true → u.grd.isEnabled .markStop = true → t.seq.state = .guard ∨ t.seq.state = .halted) ∧
      (stops = false ∨ u.grd.isEnabled .markStop = false → t.seq.state = .presenting ∧
        (u.takes → t.seq.presentWaiting = true) ∧
        (¬u.takes → ∃ c, t.seq.cursor = some c ∧ t.seq.present = some ⟨c, .expanding⟩ ∧
          t.xpe.job = some ⟨.present, c, 128 * u.hcc.census⟩))

/-! ### Steps of the shaft -/

/-- R2: the step is a forward index crossing. -/
abbrev State.crossesForward (s : State) (d : Dir) (encz : Bool) : Prop :=
  d = .forward ∧ s.ang.indexLevel = false ∧ encz = true

/-- R2: the step is a reverse index crossing. -/
abbrev State.crossesReverse (s : State) (d : Dir) (encz : Bool) : Prop :=
  d = .reverse ∧ s.ang.indexLevel = true ∧ encz = false

/-- R3 to R6: the step is an out-of-tolerance crossing or an overrun, which raise ANGLE-FAULT. -/
abbrev State.stepFaults (s : State) (d : Dir) (encz : Bool) : Prop :=
  s.ang.index = .indexed ∧
    (s.crossesForward d encz ∧ (s.ang.count < 717 ∨ 721 < s.ang.count) ∨
      s.crossesReverse d encz ∧ (s.ang.count < -2 ∨ 2 < s.ang.count) ∨
      d = .forward ∧ ¬s.crossesForward d encz ∧ 721 ≤ s.ang.count ∨
      d = .reverse ∧ ¬s.crossesReverse d encz ∧ s.ang.count ≤ -2)

/-- R3, R8: the step, if it does not raise ANGLE-FAULT, fires the schedule angle `a`. -/
abbrev State.stepFires (s : State) (d : Dir) (encz : Bool) (a : SchedAngle) : Prop :=
  d = .forward ∧ s.ang.index = .indexed ∧ a ∈ s.ang.armed ∧
    if s.crossesForward d encz then s.ang.count < (s.ang.sched.angle a : Int)
    else (s.ang.sched.angle a : Int) = s.ang.count + 1

/-- R10: two angles lie three units or more apart around the circle. -/
abbrev farApart (x y : Nat) : Prop :=
  3 ≤ (if x ≤ y then y - x else x - y) ∧ 3 ≤ 720 - if x ≤ y then y - x else x - y

/-- R137: the step that leaves the angle `angle` is unsanctioned: MOTION-STARTED with no grant, not coasting and not in
run-down; REVERSE-TRAVEL in RUNNING under FORWARD; or a forward crossing in FINDING under FIND. -/
abbrev State.stepUnsanctioned (s : State) (d : Dir) (encz : Bool) (angle : Nat) : Prop :=
  (s.ang.rest = .atRest ∧ farApart angle s.ang.restAngle ∧ s.seq.grant = .none ∧ s.seq.coasting = false ∧
      s.seq.runDown = false) ∨
    (d = .reverse ∧ s.ang.reverseTravel = 2 ∧ s.seq.state = .running ∧ s.seq.grant = .forward) ∨
    (s.crossesForward d encz ∧ s.seq.state = .finding ∧ s.seq.grant = .find)

/-- A forward step of a MOVING shaft to the count `n` (R1, R10, R11, R13). -/
def State.stepped (s : State) (n : Int) (encz : Bool) : State :=
  { s with ang := { s.ang with
      count := n
      dir := .forward
      indexLevel := encz
      reverseTravel := s.ang.reverseTravel - 1
      settleTimer := some (10 * s.ang.sched.settle)
      stallWatch := if s.ang.stallWatch = .off then .off else .armed
      stallTimer := if s.ang.stallWatch = .off then s.ang.stallTimer else some (10 * s.ang.sched.stall) } }

/-- R8: an angle out of the armed set. -/
def State.disarmed (s : State) (a : SchedAngle) : State :=
  { s with ang := { s.ang with armed := s.ang.armed.filter fun x => decide (x ≠ a) } }

/-- A forward step fires the schedule angle `a` and no other, and brings no index crossing and no MOTION-STARTED
(R8, R10): the tracker is INDEXED, the shaft is MOVING, ENCZ keeps its level. -/
def State.stepsOnto (s : State) (a : SchedAngle) : Prop :=
  s.ang.index = .indexed ∧ s.ang.rest = .moving ∧ a ∈ s.ang.armed ∧ s.ang.count + 1 = (s.ang.sched.angle a : Int) ∧
    s.ang.sched.angle a ≤ 721 ∧ ∀ b ∈ s.ang.armed, b ≠ a → s.ang.sched.angle b ≠ s.ang.sched.angle a

/-- The state in which that event reaches its block: the step counted, the angle out of the armed set (R8). -/
def State.steppedOnto (s : State) (a : SchedAngle) : State :=
  (s.stepped (s.ang.count + 1) s.ang.indexLevel).disarmed a

/-! ### Invariants -/

/-- R7, R5, R10, R11, R13: the schedule is legal; the count lies from -2 to 721, the reverse travel from 0 to 3 and the
rest angle from 0 to 719; the settle timer is stopped exactly while AT-REST; the stall timer runs exactly while the watch
is armed, and outside RUNNING the watch is off. -/
def State.trackerSound (s : State) : Prop :=
  s.ang.sched.legal ∧ -2 ≤ s.ang.count ∧ s.ang.count ≤ 721 ∧ s.ang.reverseTravel ≤ 3 ∧ s.ang.restAngle < 720 ∧
    (s.ang.settleTimer = none ↔ s.ang.rest = .atRest) ∧ (s.ang.stallTimer ≠ none ↔ s.ang.stallWatch = .armed) ∧
    (s.seq.state ≠ .running → s.ang.stallWatch = .off)

/-- The contents of every slot are in canonical form (log 10). -/
def State.contentsCanonical (s : State) : Prop :=
  ∀ i : Fin 8, match s.design i with
    | none => True
    | some d => Memory.wf 0 d.cells = true ∧ Memory.wf CardRecord.initial d.cards = true

/-- R19: each block is free or owned by exactly one slot, the block lists and the owner map agree, and the free count plus
the blocks owned by all slots is 256; an EMPTY slot owns none (R17). -/
def State.storeAccounted (s : State) : Prop :=
  (∀ (b : Fin 256) (i : Fin 8), s.fst.owner.get b = some i ↔ b.1 ∈ (s.slot i).blocks) ∧
  (∀ i : Fin 8, (s.slot i).blocks.Nodup ∧ ∀ b ∈ (s.slot i).blocks, b < 256) ∧
  (∀ i : Fin 8, (s.slot i).state = .empty → (s.slot i).blocks = []) ∧
  s.fst.free + ((List.finRange 8).map fun i => (s.slot i).blocks.length).sum = 256

/-- R38, R42, R47: every weave entry is 1 to 32 wide and high with as many lifts; every section that is not ABSENT holds a
record in its ranges; the dead-hook list is ascending, of at most 128 hooks of 0 to 12287. -/
def State.harnessSound (s : State) : Prop :=
  (∀ v : Fin 32, 1 ≤ (s.wlb.get v).width ∧ (s.wlb.get v).width ≤ 32 ∧ 1 ≤ (s.wlb.get v).height ∧
    (s.wlb.get v).height ≤ 32 ∧ (s.wlb.get v).lifts.length = (s.wlb.get v).width * (s.wlb.get v).height) ∧
  (∀ n : Fin 16, sectionArgOk (s.hmp.sections.get n) = true) ∧
  ascending s.hmp.dead = true ∧ s.hmp.dead.length ≤ 128 ∧ ∀ h ∈ s.hmp.dead, h ≤ 12287

/-- R55: the cursor is absent exactly while the sequencer is UNLOADED. -/
def State.cursorPresent (s : State) : Prop := s.seq.cursor = none ↔ s.seq.state = .unloaded

/-- The serials of the entries follow one another without gaps (R129). -/
def chained : List HistEntry → Bool
  | [] => true
  | [_] => true
  | a :: b :: r => decide (b.serial = a.serial + 1) && chained (b :: r)

/-- R56, R129: at most 64 entries, their serials consecutive modulo 65536; while a cursor is present the serial counter
is its serial, which is one above the newest entry's; without a cursor the history is empty. -/
def State.historySound (s : State) : Prop :=
  s.seq.history.length ≤ 64 ∧ chained s.seq.history = true ∧
  (s.seq.cursor = none → s.seq.history = []) ∧
  ∀ c, s.seq.cursor = some c →
    s.seq.serial = c.serial ∧ ∀ e, s.seq.history.getLast? = some e → c.serial = e.serial + 1

/-- R145: the change queue holds at most 4 entries. -/
def State.queueBounded (s : State) : Prop := s.chu.queue.length ≤ 4

/-- R76, R87: the failure limit lies from 1 to 7 and every consecutive-failure count from 0 to 7, and the counts of
failures and of edges do not pass 65535. -/
def State.weftSound (s : State) : Prop :=
  1 ≤ s.wft.limit ∧ s.wft.limit ≤ 7 ∧ s.wft.extra ≤ 65535 ∧ s.wft.stray ≤ 65535 ∧
  ∀ f : Fin 8, (s.wft.feeders.get f).failures ≤ 7 ∧ (s.wft.feeders.get f).total ≤ 65535 ∧
    ((s.wft.feeders.get f).state = .suspended → (s.wft.feeders.get f).mark = true)

/-- R105: "The echo budget counter always lies between 1 and its threshold." -/
def State.budgetSound (s : State) : Prop :=
  1 ≤ s.hcc.budget ∧ s.hcc.budget ≤ s.hcc.threshold ∧ s.hcc.threshold ≤ 255

/-- R160, R164: a trigger that may not be disabled is ENABLED; the guard limit is at most 15 and the guard count at most
15; with the limit not 0 the count never exceeds it. -/
def State.guardSound (s : State) : Prop :=
  (∀ t : Trigger, t.mayDisable = false → s.grd.isEnabled t = true) ∧ s.grd.limit ≤ 15 ∧ s.grd.count ≤ 15 ∧
    (s.grd.limit ≠ 0 → s.grd.count ≤ s.grd.limit)

/-- R167: "The stop request line is asserted exactly while the sequencer is in GUARD or HALTED." -/
def State.stopRequestSound (s : State) : Prop :=
  s.grd.stopRequest = true ↔ (s.seq.state = .guard ∨ s.seq.state = .halted)

/-- R185: each attention line is asserted exactly while its set holds a kind that is not in its mask. -/
def State.attentionSound (s : State) : Prop :=
  ∀ l : LinkId, (s.link l).attention = true ↔ ∃ k ∈ (s.link l).notices, k ∉ (s.link l).mask

/-- How often an entry names a slot: by its cursor record, and by its applied-change record (section 2.7). -/
def HistEntry.naming (i : Fin 8) (e : HistEntry) : Nat :=
  (if e.cursor.slot = i then 1 else 0) + match e.applied with | some a => if a.slot = i then 1 else 0 | none => 0

/-- How often a plan names a slot. -/
def planNaming (i : Fin 8) : Option Plan → Nat
  | some p => if p.cursor.slot = i then 1 else 0
  | none => 0

/-- What the records of the other blocks count for a slot (section 2.7). The staged pick and the record of a TAKE that a
RESET-SEQUENCER met count no more (R143, log 15). -/
def State.namings (s : State) (i : Fin 8) : Refs where
  cursor := (match s.seq.cursor with | some c => if c.slot = i then 1 else 0 | none => 0)
  staged := if s.hcc.holdsReleased then 0 else planNaming i s.xpe.staging.plan
  latched := if s.hcc.holdsReleased then 0 else planNaming i s.hcc.latched.plan
  history := (s.seq.history.map (HistEntry.naming i)).sum
  queue := (s.chu.queue.filter fun c => decide (c.slot = i)).length

/-- R84: "Every planned feeder, in the staged plan or in the plan of the latched uncommitted pick, is READY or the plan names
NONE." -/
def State.plansReady (s : State) : Prop :=
  (∀ p f, s.pendingPlan = some p → p.feeder = some f → (s.wft.feeders.get f).state = .ready) ∧
  ∀ q f, s.xpe.staging.plan = some q → q.feeder = some f → (s.wft.feeders.get f).state = .ready

/-- The latched pick, if any, is the pending pick (R82), or that of a TAKE that RESET-SEQUENCER met (log 15). -/
def State.latchedCurrent (s : State) : Prop :=
  ∀ p image, s.hcc.latched = .pick p image → s.hcc.holdsReleased = true ∨ s.seq.cursor = some p.cursor

/-- The staged pick, if any, belongs to the cursor pick (R55). -/
def State.stagedCurrent (s : State) : Prop := ∀ q, s.xpe.staging.plan = some q → s.seq.cursor = some q.cursor

/-- Where the pick stands that is on its way to the modules, and where no old latched pick can become the pending pick
again (R55, R69 to R73, R82, R118, R133, R143). -/
structure State.presentSound (s : State) : Prop where
  /-- R71: a PRESENT order waits in PRESENTING alone, and no PRESENT job stands beside it (log 16). -/
  waiting : s.seq.presentWaiting = true → s.seq.state = .presenting ∧ s.seq.present = none
  /-- R69: a PRESENT job stands in PRESENTING and FINDING alone. -/
  present : s.seq.present ≠ none → s.seq.state = .presenting ∨ s.seq.state = .finding
  /-- R70: the stage of the PRESENT job, which is for the cursor pick. -/
  stage : ∀ j, s.seq.present = some j → s.stagedCurrent ∧ (j.stage = .taking ↔ s.takes) ∧
    (j.stage ≠ .expanding → ∃ q image, s.xpe.staging = .complete q image)
  /-- R62: a job fills the staging buffer. -/
  filling : s.xpe.job ≠ none → ∃ q, s.xpe.staging = .filling q
  /-- R164, R118: in guard nothing is staged and no job runs, but for a TAKE in progress. -/
  guarded : s.seq.state = .guard ∨ s.seq.state = .halted → ¬s.takes → s.xpe = ⟨none, .empty⟩
  /-- R98: a TAKE is of a complete staged pick. -/
  complete : s.takes → ∃ q image, s.xpe.staging = .complete q image
  /-- Holds stand released during a TAKE alone (log 15). -/
  released : s.hcc.holdsReleased = true → s.takes
  /-- R143: UNLOADED leaves nothing latched, but for a TAKE that RESET-SEQUENCER met. -/
  unloaded : s.seq.state = .unloaded → (∀ p image, s.hcc.latched = .pick p image → s.hcc.holdsReleased = true) ∧
    (s.takes → s.hcc.holdsReleased = true)
  /-- R118: READY is on the latched pick, and a TAKE then in progress is of the cursor pick. -/
  ready : s.seq.state = .ready → s.latchedCurrent ∧ (s.takes → s.hcc.holdsReleased = true ∨ s.stagedCurrent)
  /-- R133 to R136: in FINDING the latched pick is none of the history, and without a PRESENT job all is as in READY. -/
  finding : s.seq.state = .finding →
    (∀ p image, s.hcc.latched = .pick p image → s.hcc.holdsReleased = true ∨ ∀ e ∈ s.seq.history, e.cursor ≠ p.cursor) ∧
    (s.seq.present = none → s.latchedCurrent ∧ (s.takes → s.hcc.holdsReleased = true ∨ s.stagedCurrent))
  /-- A TAKE in progress while the latched pick is pending is of the cursor pick. -/
  taken : s.takes → s.pendingPlan ≠ none → s.stagedCurrent

/-- R30: every reference count is the number of times its record names the slot, after a RESET-SEQUENCER as log 15 has it. -/
def State.holdsExact (s : State) : Prop := ∀ i : Fin 8, (s.slot i).refs = s.namings i

/-- R30, R31: the reference counts are exact, and every held slot is VALID; holds stand released by a RESET-SEQUENCER only
during its TAKE (log 15). -/
def State.holdsSound (s : State) : Prop :=
  s.holdsExact ∧ (∀ i : Fin 8, (s.slot i).held = true → (s.slot i).state = .valid) ∧
    (s.hcc.holdsReleased = true → s.takes)

end Machine

end Sys2Proof
end

