-- ==== Sys2Proof/Certificates/Slice0/Obligations.lean ====
section
/-! DEFINITION. The statements for the provers: what each command does, what it leaves alone, and what every step keeps.
The words they use stand in Sys2Proof/Safety.lean. -/

open Sys2Proof Sys2Proof.Machine

/-! ### The queue and reset -/

/-- A step takes the command at the front of the queue; with none waiting the block idles (both the model's own
convention, log 1). -/
def Obligations.StepRunsFrontCommand : Prop :=
  (∀ (c : Instr) (rest : List Instr) (s : State),
    step { s with pending := c :: rest } = exec c { s with pending := rest }) ∧
  ∀ s : State, s.pending = [] → step s = .next s

/-- Power-on reset gives every item of the state its value of the reset tables (sections 1.6, 2.10, 3.6, 4.8, 5.8, 6.9,
7.10, 8.7, 9.6, 10.6); the queue and the draws stay (log 6), `lastStrobe` is the DROP-ALL of section 6.9 (log 31), and
the model's own `representOwed` is `no` and `holdsReleased` false (log 40, log 15). -/
def Obligations.PowerOnResetLoadsResetTables : Prop :=
  ∀ (encz wstop : Bool) (s : State), ∃ t : State, exec (.powerOnReset encz wstop) s = .next t ∧
    t.ang = ⟨0, .unindexed, encz, .forward, .moving, 0, 0, some 100, .off, none, ⟨40, 360, 520, 540, 620, 10, 20⟩,
      [.latch, .opening, .closing, .prep, .xfer], 0⟩ ∧
    (∀ i, t.slot i = ⟨.empty, none, [], none, false, ⟨0, 0, 0, 0, 0⟩⟩) ∧ (∀ b, t.fst.owner.get b = none) ∧
    t.fst.free = 256 ∧
    (∀ v, t.wlb.get v = ⟨1, 1, [false]⟩) ∧ (∀ n, t.hmp.sections.get n = none) ∧ t.hmp.dead = [] ∧
    t.xpe = ⟨none, .empty⟩ ∧ t.seq = ⟨.unloaded, .none, false, false, none, 0, none, 0, false, [], 0, .no⟩ ∧
    t.chu.queue = [] ∧ t.chu.nextId = 0 ∧ (∀ k, t.chu.comps.get k = ⟨.off, 0, 0, false, false, 0⟩) ∧
    (∀ f, t.wft.feeders.get f = ⟨.off, false, 0, false, 0⟩) ∧ t.wft.limit = 3 ∧
    (∀ g, t.wft.groups.get g = ⟨none, none, .single, .primaryNext⟩) ∧ t.wft.window = none ∧ t.wft.capture = none ∧
    t.wft.report = none ∧ t.wft.verdict = none ∧ t.wft.extra = 0 ∧ t.wft.stray = 0 ∧ t.wft.withheld = false ∧
    t.hcc.census = 0 ∧ t.hcc.latched = .closed ∧ t.hcc.transfer = .idle ∧ t.hcc.threshold = 8 ∧ t.hcc.budget = 8 ∧
    (∀ m, t.hcc.echoErrors.get m = 0) ∧ (∀ m, t.hcc.status.get m = .none) ∧ t.hcc.faultLevel = false ∧
    t.hcc.lastCompare = none ∧ t.hcc.hookTest = none ∧ t.hcc.dropHeld = false ∧ t.hcc.busTest = .none ∧
    t.hcc.refreshClear = [] ∧ t.hcc.lastStrobe = some .drop ∧ t.hcc.holdsReleased = false ∧
    (∀ x : Trigger, t.grd.enabled.get x.idx = true ∧ t.grd.counts.get x.idx = x.countsDefault ∧
      t.grd.totals.get x.idx = 0) ∧
    t.grd.shed = .hold ∧ t.grd.limit = 4 ∧ t.grd.count = 0 ∧ t.grd.autoClear = 1000 ∧ t.grd.run = 0 ∧
    t.grd.causes = [] ∧ t.grd.entry = none ∧ t.grd.rawWarp = wstop ∧ t.grd.warp = false ∧
    t.grd.filterTimer = some 20 ∧ t.grd.filterTime = 20 ∧ t.grd.moduleLevel = false ∧ t.grd.stopRequest = false ∧
    (∀ l, t.link l = ⟨.hunting, none, none, none, false, 0, [], none, none, [], false⟩) ∧
    t.draws = s.draws ∧ t.pending = s.pending

/-- Every invariant of Safety.lean holds right after reset. -/
def Obligations.InvariantsHoldAtReset : Prop :=
  State.reset.trackerSound ∧ State.reset.contentsCanonical ∧ State.reset.storeAccounted ∧ State.reset.harnessSound ∧
  State.reset.cursorPresent ∧ State.reset.historySound ∧ State.reset.queueBounded ∧ State.reset.weftSound ∧
  State.reset.budgetSound ∧ State.reset.guardSound ∧ State.reset.stopRequestSound ∧ State.reset.attentionSound ∧
  State.reset.holdsSound ∧ State.reset.presentSound ∧ State.reset.plansReady

/-! ### What every step keeps -/

/-- Section 1: the schedule stays legal (R7), the count, the reverse travel and the rest angle stay in their ranges, the
settle timer is stopped exactly at rest (R10), the stall watch is off outside RUNNING (R13). -/
def Obligations.StepKeepsTrackerSound : Prop :=
  ∀ s t : State, s.trackerSound → step s = .next t → t.trackerSound

/-- The contents of the designs stay in canonical form (log 10). -/
def Obligations.StepKeepsContentsCanonical : Prop :=
  ∀ s t : State, s.contentsCanonical → step s = .next t → t.contentsCanonical

/-- R19: every block stays free or owned by exactly one slot, and the sum stays 256. -/
def Obligations.StepKeepsStoreAccounted : Prop :=
  ∀ s t : State, s.storeAccounted → step s = .next t → t.storeAccounted

/-- Chapter 3: weave entries, sections and the dead-hook list stay in their ranges. -/
def Obligations.StepKeepsHarnessSound : Prop :=
  ∀ s t : State, s.harnessSound → step s = .next t → t.harnessSound

/-- R55, R56, R129: the cursor is absent exactly in UNLOADED, and the history stays a run of consecutive serials that
ends below the cursor's. -/
def Obligations.StepKeepsHistorySound : Prop :=
  ∀ s t : State, s.cursorPresent → s.historySound → step s = .next t → t.cursorPresent ∧ t.historySound

/-- R105, R145, chapter 5: the change queue, the echo budget and the counts of the weft unit stay within their bounds. -/
def Obligations.StepKeepsCountersBounded : Prop :=
  ∀ s t : State, step s = .next t →
    (s.queueBounded → t.queueBounded) ∧ (s.weftSound → t.weftSound) ∧ (s.budgetSound → t.budgetSound)

/-- R160, R164: a trigger that may not be disabled stays ENABLED, and the guard count never exceeds a limit above 0. -/
def Obligations.StepKeepsGuardSound : Prop :=
  ∀ s t : State, s.guardSound → step s = .next t → t.guardSound

/-- R167: the stop request stays asserted exactly in GUARD and HALTED. -/
def Obligations.StepKeepsStopRequestSound : Prop :=
  ∀ s t : State, s.stopRequestSound → step s = .next t → t.stopRequestSound

/-- R185: the attention lines stay as the notice sets and masks give them. -/
def Obligations.StepKeepsAttentionSound : Prop :=
  ∀ s t : State, s.attentionSound → step s = .next t → t.attentionSound

/-- R84: every planned feeder of the pending plan and of the staged plan stays READY, or the plan names NONE. With it stays
what rules out that an old latched pick becomes the pending pick again: where the pick on its way to the modules and the
latched pick stand in each state (`presentSound`; after RESET-SEQUENCER during a TAKE by log 15, orders that wait for a TAKE
by log 16). HISTORY-END, which may not be disabled, is among the premises (`guardSound`). -/
def Obligations.StepKeepsPlansReady : Prop :=
  ∀ s t : State, s.cursorPresent → s.historySound → s.guardSound → s.presentSound → s.plansReady → step s = .next t →
    t.presentSound ∧ t.plansReady

/-- R30, R31: the reference counts stay exact, and every held slot stays VALID. While a TAKE that RESET-SEQUENCER met is in
progress the staged pick and the record count 0: their holds went with the reset (log 15). -/
def Obligations.StepKeepsHoldsSound : Prop :=
  ∀ s t : State, s.holdsSound → step s = .next t → t.holdsSound

/-! ### The links -/

/-- R175, R178: a request that reaches a link while another is outstanding is counted and dropped; one that ends an
overlapping frame already counted is dropped. Nothing else changes. (Request rows as whole frames: log 11.) -/
def Obligations.BusyLinkDropsRequests : Prop :=
  ∀ (c : Instr) (l : LinkId) (r : Request) (s : State), c.asRequest = some (l, r) →
    ((s.link l).rx = .discarding →
      exec c s = .next (s.modLink l fun k => { k with rx := .hunting, frame := none })) ∧
    ((s.link l).rx = .hunting → (s.link l).outstanding ≠ none →
      exec c s = .next (s.modLink l fun k =>
        { k with errors := if k.errors < 65535 then k.errors + 1 else k.errors }))

/-- R181: a refused request changes no state, its response apart. The owners' rules that say otherwise are R180 (a
FRAME-ERROR is counted) and R112 (a HOOK-TEST refused CHECK-FAILED records NOT-RUN). A refused READ-NOTICES whose operand
puts the start of an overlapping frame before the gathering counts that frame and discards it (R180; the operand: log 41). -/
def Obligations.RefusedRequestChangesNothing : Prop :=
  ∀ (c : Instr) (l : LinkId) (r : Request) (s t : State) (a : Response), c.asRequest = some (l, r) →
    (s.link l).isOpen = true → (s.link l).response = none → exec c s = .next t → (t.link l).response = some a →
    a.status ≠ .ok →
    ((∀ clear e, c ≠ .readNotices l clear ⟨e, true⟩) →
      t = (if a.status = .frameError then
            s.modLink l fun k => { k with errors := if k.errors < 65535 then k.errors + 1 else k.errors }
          else if c = .hookTest ∧ a.status = .checkFailed then { s with hcc := { s.hcc with hookTest := some .notRun } }
          else s).responded l r a.status []) ∧
    ((∃ clear e, c = .readNotices l clear ⟨e, true⟩) →
      t = (s.responded l r a.status []).modLink l fun k =>
        { k with errors := (if k.errors < 65535 then k.errors + 1 else k.errors), rx := .discarding,
                 frame := some ⟨[], false⟩ })

/-- Section 10.4 and the read rules of the other chapters: these requests are accepted in every state, return their
record as held and change nothing. (The records' layouts: log 24, log 25, log 39.) IDENTIFY returns every capacity of
R182, 65,536 cells among them, low byte first; the revision, whether its field has one byte or two, and the width of the
field of the cells are free values (log 25). -/
def Obligations.ReadRequestsChangeNothing : Prop :=
  (∀ l, identifyRecord l = ([0x48, 0x1C] : List Byte) ++
    (Config.revision.setWidth 8 :: if Config.revisionWide then [(Config.revision >>> 8).setWidth 8] else []) ++
    ([(match l with | .p => 0 | .d => 1 | .w => 2), 8, 0, 1] : List Byte) ++
    ([0, 0, 1] ++ List.replicate Config.cellsExtra 0) ++ [32, 16, 128, 96, 128, 8, 8, 64, 4, 4, 0, 16]) ∧
  ∀ s : State,
    (∀ l, (s.link l).isOpen = true →
      exec (.identify l) s = .next (s.responded l .identify .ok (identifyRecord l))) ∧
    (s.plk.isOpen = true →
      exec .readStatus s = .next (s.responded .p .readStatus .ok (statusRecord s)) ∧
      exec .readSchedule s = .next (s.responded .p .readSchedule .ok
        (b16 s.ang.sched.latch ++ b16 s.ang.sched.opening ++ b16 s.ang.sched.closing ++ b16 s.ang.sched.prep ++
          b16 s.ang.sched.xfer ++ b8 s.ang.sched.settle ++ b8 s.ang.sched.stall)) ∧
      exec .readStore s = .next (s.responded .p .readStore .ok (storeRecord s.fst)) ∧
      exec .readHarness s = .next (s.responded .p .readHarness .ok
        (s.hmp.sections.toList.flatMap bSection ++ b8 s.hmp.dead.length ++ s.hmp.dead.flatMap b16)) ∧
      exec .readChanges s = .next (s.responded .p .readChanges .ok
        (b8 s.chu.queue.length ++ s.chu.queue.flatMap bChange ++ b16 s.chu.nextId.toNat ++
          s.chu.comps.toList.flatMap bComparator))) ∧
    (s.wlk.isOpen = true →
      (s.wft.withheld = true → exec .weftPlan s = .next (s.responded .w .weftPlan .ok [0])) ∧
      (s.wft.withheld = false → ∀ p q, s.pendingPlan = p → s.xpe.staging.plan = q →
        exec .weftPlan s = .next (s.responded .w .weftPlan .ok
          (b8 ((if p.isSome then 1 else 0) + if q.isSome then 1 else 0) ++
            (match p with | some x => bPlan 0 x | none => []) ++ match q with | some x => bPlan 1 x | none => []))))

/-- Section 10.5: READ-NOTICES returns the set, the mask and the link error counter as held, then the kinds named leave
the set with their details, the counter is cleared when named, and the line is set; a kind the link does not carry
refuses the whole. R180: an overlapping frame whose start is taken before the values are gathered (`overlapped`, log 41) is
counted first, so that its count is returned and then cleared when named; the receiver is then discarding it. -/
def Obligations.ReadNoticesClearsNamedKinds : Prop :=
  ∀ (l : LinkId) (clear : List NoticeKind) (e overlapped : Bool) (s : State), (s.link l).isOpen = true →
    ∃ (n : Nat) (receiver : Link → Link),
      n = (if overlapped = true ∧ (s.link l).errors < 65535 then (s.link l).errors + 1 else (s.link l).errors) ∧
      (receiver = fun k => if overlapped = true then { k with rx := .discarding, frame := some ⟨[], false⟩ } else k) ∧
      ((∃ k ∈ clear, carries l k = false) →
        exec (.readNotices l clear ⟨e, overlapped⟩) s = .next
          (((s.modLink l fun k => { k with errors := n }).responded l .readNotices .badArgument []).modLink l receiver)) ∧
      ((∀ k ∈ clear, carries l k = true) → ∃ set : List NoticeKind,
        set = (s.link l).notices.filter (fun k => k ∉ clear) ∧
        exec (.readNotices l clear ⟨e, overlapped⟩) s = .next
          (((s.modLink l fun k => { k with
              notices := set
              attention := set.any fun n => decide (n ∉ k.mask)
              droppedId := if NoticeKind.changeDropped ∈ clear then none else k.droppedId
              ignored := if NoticeKind.triggerIgnored ∈ clear then none else k.ignored
              errors := if e then 0 else n }).responded l .readNotices .ok
                (noticesRecord l { s.link l with errors := n })).modLink l receiver))

/-- R187: SET-NOTICE-MASK replaces the mask as a whole, keeps the notice set and sets the attention line in the same
step; the response carries the line's level. A set naming a kind the link does not carry is refused BAD-ARGUMENT. -/
def Obligations.SetNoticeMaskSetsAttention : Prop :=
  ∀ (l : LinkId) (mask : List NoticeKind) (s : State), (s.link l).isOpen = true →
    ((∃ k ∈ mask, carries l k = false) →
      exec (.setNoticeMask l mask) s = .next (s.responded l .setNoticeMask .badArgument [])) ∧
    ((∀ k ∈ mask, carries l k = true) → ∃ (m : List NoticeKind) (line : Bool),
      (∀ k, k ∈ m ↔ k ∈ mask) ∧ (line = true ↔ ∃ k ∈ (s.link l).notices, k ∉ mask) ∧
      exec (.setNoticeMask l mask) s = .next
        ((s.modLink l fun k => { k with mask := m, attention := line }).responded l .setNoticeMask .ok
          [if line then 1 else 0]))

/-- R184 with the layout of section 11.4: READINESS returns its six bytes as held and changes nothing; the FORWARD
refusal is the first failing check of R120, and none means that a MOTION FORWARD taken at that moment would be granted.
(The angle bytes carry the count modulo 720 in every index state, also while UNINDEXED: the model's reading, log 7.) -/
def Obligations.ReadinessReportsForwardRefusal : Prop :=
  ∀ s : State, s.dlk.isOpen = true → ∃ (flags refusal : Byte),
    exec .readiness s = .next (s.responded .d .readiness .ok
      [BitVec.ofNat 8 (stateCode s.seq.state), BitVec.ofNat 8 (grantCode s.seq.grant), flags,
        BitVec.ofNat 8 s.ang.angle, BitVec.ofNat 8 (s.ang.angle / 256), refusal]) ∧
    flags.getLsbD 0 = s.seq.coasting ∧ flags.getLsbD 1 = s.seq.runDown ∧ flags.getLsbD 2 = s.grd.stopRequest ∧
    (flags.getLsbD 3 = true ↔ s.ang.index = .indexed) ∧ (flags.getLsbD 4 = true ↔ s.ang.rest = .atRest) ∧
    flags.getLsbD 5 = s.latchedBelongs ∧ (flags.getLsbD 6 = true ↔ s.pendingFeeder ≠ none) ∧ flags.getLsbD 7 = false ∧
    (refusal = 255 ↔ ∃ t, exec .motionForward s = .next t ∧ t.seq.grant = .forward ∧ s.seq.grant = .none) ∧
    (refusal ≠ 255 → ∃ st : Status, refusal = st.code ∧
      exec .motionForward s = .next (s.responded .d .motion st []))

/-- R25, R36, R41, R141: the reads that name what they read are checked in their order, return it as held and change
nothing: READ-FIGURE, READ-CARDS, READ-WEAVE, READ-HISTORY. (A LOADING or VALID slot without a design, which no run
reaches, reads as EMPTY: log 29.) -/
def Obligations.NamedReadsReturnContents : Prop :=
  ∀ s : State, s.plk.isOpen = true →
    (∀ (i : Fin 8) (d : Design) (c j n : Nat), (s.slot i).state ≠ .empty → s.design i = some d → 1 ≤ n → n ≤ 8000 →
      exec (.readFigure i.1 c j n) s = .next
        (if c < d.height ∧ j < d.width ∧ c * d.width + j + n ≤ d.height * d.width then
          s.responded .p .readFigure .ok (bCells ((List.range n).map fun k =>
            d.cell ((c * d.width + j + k) / d.width) ((c * d.width + j + k) % d.width)))
        else s.responded .p .readFigure .badArgument [])) ∧
    (∀ (i : Fin 8) (d : Design) (c n : Nat), (s.slot i).state ≠ .empty → s.design i = some d → 1 ≤ n → n ≤ 512 →
      exec (.readCards i.1 c n) s = .next
        (if c + n ≤ d.height then
          s.responded .p .readCards .ok (((List.range n).flatMap fun k => bCard (d.card (c + k))) ++
            if c = 0 ∧ n = d.height then bMap d.map else [])
        else s.responded .p .readCards .badArgument [])) ∧
    (∀ (i : Fin 8) (c j n : Nat), (s.slot i).state = .empty → 1 ≤ n →
      (n ≤ 8000 → exec (.readFigure i.1 c j n) s = .next (s.responded .p .readFigure .wrongState [])) ∧
      (n ≤ 512 → exec (.readCards i.1 c n) s = .next (s.responded .p .readCards .wrongState []))) ∧
    (∀ i c j n : Nat, 8 ≤ i ∨ n = 0 ∨ 8000 < n →
      exec (.readFigure i c j n) s = .next (s.responded .p .readFigure .badArgument [])) ∧
    (∀ i c n : Nat, 8 ≤ i ∨ n = 0 ∨ 512 < n →
      exec (.readCards i c n) s = .next (s.responded .p .readCards .badArgument [])) ∧
    (∀ v : Fin 32, exec (.readWeave v.1) s = .next (s.responded .p .readWeave .ok
      (b8 (s.wlb.get v).width ++ b8 (s.wlb.get v).height ++ bBits (s.wlb.get v).lifts ++
        bList (fun x => b8 x.1) (s.heldNaming v.1) ++ bList (fun x => b8 x.1) (s.hmp.fixedNaming v.1)))) ∧
    (∀ v : Nat, 32 ≤ v → exec (.readWeave v) s = .next (s.responded .p .readWeave .badArgument [])) ∧
    (∀ depth n : Nat, exec (.readHistory depth n) s = .next
      (if depth ≤ 63 ∧ 1 ≤ n ∧ n ≤ 64 then
        s.responded .p .readHistory .ok
          (b8 s.seq.history.length ++ b32 s.seq.woven.toNat ++
            b8 (min n (s.seq.history.length - depth)) ++ ((s.seq.history.reverse.drop depth).take n).flatMap bEntry)
      else s.responded .p .readHistory .badArgument []))

/-- R95, R113, R173: the reads that carry a clear set return the values from before the clear, and clear exactly what is
named: READ-WEFT (on the W-link with an empty clear set, on the D-link unknown), READ-MODULES with refresh NO,
READ-GUARD. -/
def Obligations.ClearingReadsReturnOldValues : Prop :=
  ∀ s : State,
    (∀ (l : LinkId) (faulted totals : BitVec 8) (extra stray : Bool), (s.link l).isOpen = true →
      (l = .d → exec (.readWeft l faulted totals extra stray) s = .next (s.responded l .readWeft .unknownRequest [])) ∧
      (l = .w → ¬(faulted = 0 ∧ totals = 0 ∧ extra = false ∧ stray = false) →
        exec (.readWeft l faulted totals extra stray) s = .next (s.responded l .readWeft .badArgument [])) ∧
      (l = .p ∨ (l = .w ∧ faulted = 0 ∧ totals = 0 ∧ extra = false ∧ stray = false) →
        ∃ feeders : Vector Feeder 8,
          exec (.readWeft l faulted totals extra stray) s = .next
            (({ s with wft := { s.wft with
                  feeders := feeders
                  extra := if extra then 0 else s.wft.extra
                  stray := if stray then 0 else s.wft.stray } }).responded l .readWeft .ok (weftRecord s.wft)) ∧
          ∀ f : Fin 8, feeders.get f = { s.wft.feeders.get f with
            faulted := !faulted.getLsbD f.1 && (s.wft.feeders.get f).faulted
            total := if totals.getLsbD f.1 then 0 else (s.wft.feeders.get f).total })) ∧
    (s.plk.isOpen = true → ∀ clear : List Nat,
      ((∀ m ∈ clear, m < 96) → ∃ errors : Vector Nat 96,
        exec (.readModules clear) s = .next
          (({ s with hcc := { s.hcc with echoErrors := errors } }).responded .p .readModules .ok (modulesRecord s.hcc)) ∧
        ∀ m : Fin 96, errors.get m = if m.1 ∈ clear then 0 else s.hcc.echoErrors.get m) ∧
      ((∃ m ∈ clear, 96 ≤ m) →
        exec (.readModules clear) s = .next (s.responded .p .readModules .badArgument []))) ∧
    (s.plk.isOpen = true → ∀ clear : List Trigger, ∃ totals : Vector Nat 13,
      exec (.readGuard clear) s = .next
        (({ s with grd := { s.grd with totals := totals } }).responded .p .readGuard .ok
          (guardRecord s.grd s.seq.coasting)) ∧
      ∀ x : Trigger, totals.get x.idx = if x ∈ clear then 0 else s.grd.totals.get x.idx)

/-! ### Motion -/

/-- R120: the checks of MOTION FORWARD in their order, and its grant. (Without a pending plan, which READY does not have
in a run, the answer is NO-FEEDER: log 29.) -/
def Obligations.ForwardGrantedAfterChecks : Prop :=
  ∀ s : State, s.dlk.isOpen = true →
    exec .motionForward s = .next
      (if s.seq.state = .presenting then s.responded .d .motion .busy []
      else if s.seq.state ≠ .ready then s.responded .d .motion .wrongState []
      else if s.seq.grant ≠ .none then s.responded .d .motion .wrongState []
      else if s.ang.rest ≠ .atRest then s.responded .d .motion .wrongState []
      else if ¬(s.ang.index = .indexed ∧ (s.ang.sched.latch : Int) ≤ s.ang.count ∧
          s.ang.count < (s.ang.sched.opening : Int)) then s.responded .d .motion .wrongAngle []
      else if s.grd.warp = true then s.responded .d .motion .causeActive []
      else if s.pendingFeeder = none then s.responded .d .motion .noFeeder []
      else
        (raise .d .readyChanged { s with
          seq := { s.seq with grant := .forward, state := .running }
          ang := { s.ang with stallWatch := .armed, stallTimer := some (10 * s.ang.sched.stall) } }).responded
            .d .motion .ok [1, 3])

/-- R121, R122: the checks of MOTION FIND and POSITION in their order, and their grants. -/
def Obligations.FindAndPositionGranted : Prop :=
  ∀ s : State, s.dlk.isOpen = true →
    exec .motionFind s = .next
      (if s.seq.state = .presenting then s.responded .d .motion .busy []
      else if s.seq.state ≠ .ready then s.responded .d .motion .wrongState []
      else if s.seq.grant ≠ .none then s.responded .d .motion .wrongState []
      else if s.ang.rest ≠ .atRest then s.responded .d .motion .wrongState []
      else (raise .d .readyChanged { s with seq := { s.seq with grant := .find, state := .finding } }).responded
        .d .motion .ok [2, 5]) ∧
    exec .motionPosition s = .next
      (if s.seq.state = .presenting then s.responded .d .motion .busy []
      else if s.seq.state ≠ .ready then s.responded .d .motion .wrongState []
      else if s.seq.grant ≠ .none then s.responded .d .motion .wrongState []
      else if s.ang.rest ≠ .atRest then s.responded .d .motion .wrongState []
      else ({ s with seq := { s.seq with grant := .position } }).responded .d .motion .ok [3, 2])

/-- R123, R124: STOP is accepted in every state. While the shaft is MOVING the grant goes, run-down is set and RUNNING
becomes STOPPING with the stall watch off; at rest run-down is cleared and the rest handling is taken at once: from
RUNNING or STOPPING that of R132 (`restTaken`; the verdict at rest clears the report record: log 37; a run counter above
0 under auto-clear run 0 stays: log 38; FEEDER-UNAVAILABLE once for an event: log 14), in GUARD the exit check (what
follows an exit to READY for a map write: log 40; an order that waits for a TAKE: log 16). -/
def Obligations.StopEndsGrant : Prop :=
  ∀ s : State, s.dlk.isOpen = true →
    (s.ang.rest = .moving → s.seq.state ≠ .running →
      exec .stop s = .next (({ s with seq := { s.seq with grant := .none, runDown := true } }).responded .d .motion .ok
        [0, BitVec.ofNat 8 (stateCode s.seq.state)])) ∧
    (s.ang.rest = .moving → s.seq.state = .running →
      exec .stop s = .next (({ s with
        seq := { s.seq with grant := .none, runDown := true, state := .stopping }
        ang := { s.ang with stallWatch := .off, stallTimer := none } }).responded .d .motion .ok [0, 4])) ∧
    (s.ang.rest = .atRest → s.seq.state = .unloaded ∨ s.seq.state = .presenting ∨ s.seq.state = .ready →
      exec .stop s = .next (({ s with seq := { s.seq with grant := .none, runDown := false } }).responded .d .motion .ok
        [0, BitVec.ofNat 8 (stateCode s.seq.state)])) ∧
    (s.ang.rest = .atRest → s.seq.state = .halted →
      exec .stop s = .next (({ s with seq := { s.seq with grant := .none, runDown := false, coasting := false } }).responded
        .d .motion .ok [0, 7])) ∧
    (s.ang.rest = .atRest → s.seq.state = .guard → s.grd.levelCause = true →
      exec .stop s = .next (({ s with seq := { s.seq with grant := .none, runDown := false, coasting := false } }).responded
        .d .motion .ok [0, 6])) ∧
    (s.ang.rest = .atRest → s.seq.state = .guard → s.grd.levelCause = false →
      ∃ t, exec .stop s = .next t ∧ s.guardLeft s.grd.run s.grd.count t ∧ t.seq.grant = .none ∧ t.seq.runDown = false ∧
        t.dlk.response = some ⟨.ok, [0, BitVec.ofNat 8 (stateCode t.seq.state)]⟩) ∧
    (s.ang.rest = .atRest → s.seq.state = .finding →
      exec .stop s = .next
        ((if s.seq.present = none ∧ s.seq.findWaiting = 0 then
          raise .w .planChanged (raise .d .readyChanged { s with
            seq := { s.seq with grant := .none, runDown := false, state := .ready }
            wft := { s.wft with withheld := false } })
        else { s with seq := { s.seq with grant := .none, runDown := false } }).responded .d .motion .ok
          [0, if s.seq.present = none ∧ s.seq.findWaiting = 0 then 2 else 5])) ∧
    (s.ang.rest = .atRest → s.seq.state = .running ∨ s.seq.state = .stopping → ∃ u v : State,
      u = ({ s with
        seq := { s.seq with grant := .none, runDown := false, state := .stopping }
        ang := (if s.seq.state = .running then { s.ang with stallWatch := .off, stallTimer := none } else s.ang)
        } : State).awaited .d .motion ∧
      exec .stop s = .next (v.answeredLate .d .ok [0, BitVec.ofNat 8 (stateCode v.seq.state)]) ∧ u.restTaken v)

/-! ### The shaft -/

/-- R14, R7: SET-SCHEDULE is checked in its order; accepted, all seven settings replace the schedule and the armed set is
re-derived; nothing else changes. The legality is R7's ordering with the ranges of R14. -/
def Obligations.SetScheduleRederivesArmedSet : Prop :=
  ∀ (c : Schedule) (s : State), s.plk.isOpen = true →
    (¬(s.seq.state = .unloaded ∨ s.seq.state = .ready ∧ s.seq.grant = .none) →
      exec (.setSchedule c) s = .next (s.responded .p .setSchedule .wrongState [])) ∧
    ((s.seq.state = .unloaded ∨ s.seq.state = .ready ∧ s.seq.grant = .none) →
      ¬(0 < c.latch ∧ c.latch < c.opening ∧ c.opening < c.closing ∧ c.closing ≤ c.prep ∧ c.prep < c.xfer ∧
        c.xfer ≤ 719 ∧ 1 ≤ c.settle ∧ c.settle ≤ 255 ∧ 1 ≤ c.stall ∧ c.stall ≤ 255) →
      exec (.setSchedule c) s = .next (s.responded .p .setSchedule .badArgument [])) ∧
    ((s.seq.state = .unloaded ∨ s.seq.state = .ready ∧ s.seq.grant = .none) →
      (0 < c.latch ∧ c.latch < c.opening ∧ c.opening < c.closing ∧ c.closing ≤ c.prep ∧ c.prep < c.xfer ∧
        c.xfer ≤ 719 ∧ 1 ≤ c.settle ∧ c.settle ≤ 255 ∧ 1 ≤ c.stall ∧ c.stall ≤ 255) →
      ∃ armed : List SchedAngle,
        exec (.setSchedule c) s = .next
          (({ s with ang := { s.ang with sched := c, armed := armed } }).responded .p .setSchedule .ok []) ∧
        ∀ a, a ∈ armed ↔ (s.ang.index = .unindexed ∨ s.ang.count < (c.angle a : Int)))

/-- R1 to R6, R8, R10, R11, R13, R137, R138: what an encoder step does to the count, the index state, the direction, the index
level and the reverse travel, whatever events it raises; to the rest state and the settle timer; to the stall watch
and its timer, unless the step enters guard, which puts the watch off; to the armed set; to the fault total, and that GRD has taken ANGLE-FAULT; and which steps are unsanctioned motion, judged with the count already
moved. (Out of range counts and the wrap while UNINDEXED: log 7. A re-arming step while UNINDEXED: log 9. REVERSE-TRAVEL
after the count: log 8. In UNLOADED the notice alone: log 26.) -/
def Obligations.EncoderStepMovesShaft : Prop :=
  ∀ (d : Dir) (encz : Bool) (s : State), ∃ t, exec (.encoderStep d encz) s = .next t ∧
    t.ang.dir = d ∧ t.ang.indexLevel = encz ∧
    t.ang.reverseTravel = (match d with
      | .forward => s.ang.reverseTravel - 1
      | .reverse => if s.ang.reverseTravel < 3 then s.ang.reverseTravel + 1 else s.ang.reverseTravel) ∧
    (d = .forward → s.ang.indexLevel = false → encz = true → t.ang.count = 0 ∧ t.ang.index = .indexed ∧
      ∀ a, a ∈ t.ang.armed) ∧
    (d = .reverse → s.ang.indexLevel = true → encz = false → t.ang.count = 719 ∧ t.ang.index = .indexed) ∧
    (d = .forward → ¬(s.ang.indexLevel = false ∧ encz = true) → s.ang.index = .indexed → s.ang.count ≤ 720 →
      t.ang.count = s.ang.count + 1 ∧ t.ang.index = .indexed) ∧
    (d = .forward → ¬(s.ang.indexLevel = false ∧ encz = true) → s.ang.index = .indexed → s.ang.count = 721 →
      t.ang.count = 2 ∧ t.ang.index = .unindexed ∧
      t.ang.faultTotal = if s.ang.faultTotal < 65535 then s.ang.faultTotal + 1 else s.ang.faultTotal) ∧
    (d = .reverse → ¬(s.ang.indexLevel = true ∧ encz = false) → s.ang.index = .indexed → -1 ≤ s.ang.count →
      t.ang.count = s.ang.count - 1 ∧ t.ang.index = .indexed) ∧
    (d = .reverse → ¬(s.ang.indexLevel = true ∧ encz = false) → s.ang.index = .indexed → s.ang.count = -2 →
      t.ang.count = 717 ∧ t.ang.index = .unindexed ∧
      t.ang.faultTotal = if s.ang.faultTotal < 65535 then s.ang.faultTotal + 1 else s.ang.faultTotal) ∧
    (¬(d = .forward ∧ s.ang.indexLevel = false ∧ encz = true) → ¬(d = .reverse ∧ s.ang.indexLevel = true ∧ encz = false) →
      s.ang.index = .unindexed → 0 ≤ s.ang.count → s.ang.count ≤ 719 → t.ang.index = .unindexed ∧
      t.ang.count = (match d with
        | .forward => if s.ang.count = 719 then 0 else s.ang.count + 1
        | .reverse => if s.ang.count = 0 then 719 else s.ang.count - 1)) ∧
    -- R10: the rest state and the settle timer
    t.ang.restAngle = s.ang.restAngle ∧
    (s.ang.rest = .moving ∨ farApart t.ang.angle s.ang.restAngle →
      t.ang.rest = .moving ∧ t.ang.settleTimer = some (10 * s.ang.sched.settle)) ∧
    (s.ang.rest = .atRest → ¬farApart t.ang.angle s.ang.restAngle →
      t.ang.rest = .atRest ∧ t.ang.settleTimer = s.ang.settleTimer) ∧
    -- R13: the stall watch and its timer
    (s.ang.stallWatch = .off → t.ang.stallWatch = .off ∧ (s.ang.stallTimer = none → t.ang.stallTimer = none)) ∧
    (s.ang.stallWatch ≠ .off → ¬(s.seq.state.guarded ∧ (t.seq.state = .guard ∨ t.seq.state = .halted)) →
      t.ang.stallWatch = .armed ∧ t.ang.stallTimer = some (10 * s.ang.sched.stall)) ∧
    (s.seq.state.guarded → t.seq.state = .guard ∨ t.seq.state = .halted →
      t.ang.stallWatch = .off ∧ t.ang.stallTimer = none) ∧
    -- R4, R8: the armed set
    (s.crossesReverse d encz → t.ang.armed = s.ang.armed) ∧
    (d = .reverse → ¬s.crossesReverse d encz →
      ∀ a, a ∈ t.ang.armed ↔ a ∈ s.ang.armed ∨ t.ang.count ≤ (s.ang.sched.angle a : Int) - 3) ∧
    (d = .forward → ¬s.crossesForward d encz → s.stepFaults d encz → t.ang.armed = s.ang.armed) ∧
    (d = .forward → ¬s.crossesForward d encz → ¬s.stepFaults d encz →
      ∀ a, a ∈ t.ang.armed ↔ a ∈ s.ang.armed ∧ ¬s.stepFires d encz a) ∧
    -- R3 to R6: ANGLE-FAULT
    t.ang.faultTotal = (if s.stepFaults d encz ∧ s.ang.faultTotal < 65535 then s.ang.faultTotal + 1 else s.ang.faultTotal) ∧
    (s.stepFaults d encz → s.seq.state.guarded → s.grd.isEnabled .angleFault = true →
      (t.seq.state = .guard ∨ t.seq.state = .halted) ∧ .angleFault ∈ t.grd.causes ∧
      (s.crossesForward d encz ∨ s.crossesReverse d encz → t.grd.entry = some
        ⟨.angleFault, s.seq.state, s.seq.cursor.map (·.serial), s.ang.angle, decide (t.seq.state = .halted)⟩)) ∧
    -- R137, R138: the judgement of motion, at a step that raises no ANGLE-FAULT, no schedule event and no find step
    (¬s.stepFaults d encz → (∀ a, ¬s.stepFires d encz a) → (s.crossesReverse d encz → s.seq.state ≠ .finding) →
      ∃ (a : Ang) (k : Nat) (u : State), u = { s with ang := a, draws := k } ∧ a.count = t.ang.count ∧
        (¬s.stepUnsanctioned d encz t.ang.angle → t = u) ∧
        (s.stepUnsanctioned d encz t.ang.angle → s.seq.state = .unloaded → t = raise .p .unsanctionedMotion u) ∧
        (s.stepUnsanctioned d encz t.ang.angle → s.seq.state ≠ .unloaded →
          t = trigger .unsanctionedMotion (raise .p .unsanctionedMotion u))) ∧
    t.wlb = s.wlb ∧ t.hmp = s.hmp ∧ t.fst.owner = s.fst.owner ∧ t.fst.free = s.fst.free ∧
    t.pending = s.pending

/-! ### The design store -/

/-- R22, R19, R20: DEFINE-DESIGN is checked in its order; accepted, it takes the lowest-numbered free blocks in ascending
order, names the slot in the owner map, lowers the free count, and leaves the slot LOADING with every cell 0 and every
card record initial. The other slots are unchanged. -/
def Obligations.DefineDesignTakesLowestFreeBlocks : Prop :=
  ∀ (w h : Nat) (map : Vector Nat 16) (s : State), s.plk.isOpen = true →
    (∀ i : Nat, 8 ≤ i →
      exec (.defineDesign i w h map) s = .next (s.responded .p .defineDesign .badArgument [])) ∧
    ∀ i : Fin 8,
      ((s.slot i).state ≠ .empty →
        exec (.defineDesign i.1 w h map) s = .next (s.responded .p .defineDesign .wrongState [])) ∧
      ((s.slot i).state = .empty → ¬(8 ≤ w ∧ w ≤ 6144 ∧ 1 ≤ h ∧ h ≤ 16384 ∧ ∀ v ∈ map.toList, v ≤ 31) →
        exec (.defineDesign i.1 w h map) s = .next (s.responded .p .defineDesign .badArgument [])) ∧
      ((s.slot i).state = .empty → (8 ≤ w ∧ w ≤ 6144 ∧ 1 ≤ h ∧ h ≤ 16384 ∧ ∀ v ∈ map.toList, v ≤ 31) →
        s.fst.free < (h * (w + 8) + 65535) / 65536 →
        exec (.defineDesign i.1 w h map) s = .next (s.responded .p .defineDesign .noSpace [])) ∧
      ((s.slot i).state = .empty → (8 ≤ w ∧ w ≤ 6144 ∧ 1 ≤ h ∧ h ≤ 16384 ∧ ∀ v ∈ map.toList, v ≤ 31) →
        (h * (w + 8) + 65535) / 65536 ≤ s.fst.free → ∃ (f : Fst) (n : Nat) (d : Design) (blocks : List Nat),
        exec (.defineDesign i.1 w h map) s = .next
          (({ s with fst := f }).responded .p .defineDesign .ok (b16 n ++ b16 (s.fst.free - n))) ∧
        n = (h * (w + 8) + 65535) / 65536 ∧
        blocks = (((List.finRange 256).filter fun b => (s.fst.owner.get b).isNone).map (·.1)).take n ∧
        f.free = s.fst.free - n ∧ (∀ j, j ≠ i → f.slots.get j = s.slot j) ∧
        f.slots.get i = { s.slot i with state := .loading, design := some d, blocks := blocks, nonVoid := none } ∧
        d.width = w ∧ d.height = h ∧ d.map = map ∧ (∀ c j, d.cell c j = 0) ∧
        (∀ c, d.card c = ⟨.colour 0, 0, 1, false⟩) ∧
        ∀ b : Fin 256, f.owner.get b = if b.1 ∈ blocks then some i else s.fst.owner.get b)

/-- R23, R24: WRITE-FIGURE and WRITE-CARDS are taken in LOADING alone; a run that lies in the design replaces exactly its
cells or its records, in row order, and leaves header, blocks, records or cells, and every other slot; a run that does
not, or a record out of range, writes nothing. The count's own range is the link's (R191). -/
def Obligations.StoreWritesReplaceRun : Prop :=
  ∀ s : State, s.plk.isOpen = true → s.contentsCanonical →
    (∀ (i : Fin 8) (d : Design) (c j : Nat) (cells : List (BitVec 4)), (s.slot i).state = .loading → s.design i = some d →
      1 ≤ cells.length → cells.length ≤ 8000 → c < d.height → j < d.width →
      c * d.width + j + cells.length ≤ d.height * d.width → ∃ d' : Design,
        exec (.writeFigure i.1 c j cells) s = .next
          (({ s with fst := s.fst.modSlot i fun x => { x with design := some d' } }).responded .p .writeFigure .ok []) ∧
        d'.width = d.width ∧ d'.height = d.height ∧ d'.map = d.map ∧ (∀ k, d'.card k = d.card k) ∧
        ∀ x y, x < d.height → y < d.width →
          d'.cell x y =
            if c * d.width + j ≤ x * d.width + y ∧ x * d.width + y < c * d.width + j + cells.length then
              cells.getD (x * d.width + y - (c * d.width + j)) 0
            else d.cell x y) ∧
    (∀ (i : Fin 8) (d : Design) (c : Nat) (records : List CardRecord), (s.slot i).state = .loading →
      s.design i = some d → 1 ≤ records.length → records.length ≤ 512 → c + records.length ≤ d.height →
      (∀ r ∈ records, 1 ≤ r.pickRepeat ∧ r.pickRepeat ≤ 4) → ∃ d' : Design,
        exec (.writeCards i.1 c records) s = .next
          (({ s with fst := s.fst.modSlot i fun x => { x with design := some d' } }).responded .p .writeCards .ok []) ∧
        d'.width = d.width ∧ d'.height = d.height ∧ d'.map = d.map ∧ (∀ x y, d'.cell x y = d.cell x y) ∧
        ∀ k, d'.card k =
          if c ≤ k ∧ k < c + records.length then records.getD (k - c) ⟨.colour 0, 0, 1, false⟩ else d.card k) ∧
    (∀ (i : Fin 8) (d : Design) (c j : Nat) (cells : List (BitVec 4)), (s.slot i).state = .loading → s.design i = some d →
      ¬(c < d.height ∧ j < d.width ∧ c * d.width + j + cells.length ≤ d.height * d.width) →
      exec (.writeFigure i.1 c j cells) s = .next (s.responded .p .writeFigure .badArgument [])) ∧
    (∀ (i : Fin 8) (d : Design) (c : Nat) (records : List CardRecord), (s.slot i).state = .loading →
      s.design i = some d → (d.height < c + records.length ∨ ∃ r ∈ records, r.pickRepeat = 0 ∨ 4 < r.pickRepeat) →
      exec (.writeCards i.1 c records) s = .next (s.responded .p .writeCards .badArgument [])) ∧
    (∀ (i : Fin 8) (c j : Nat) (cells : List (BitVec 4)), (s.slot i).state ≠ .loading → 1 ≤ cells.length →
      cells.length ≤ 8000 →
      exec (.writeFigure i.1 c j cells) s = .next (s.responded .p .writeFigure .wrongState [])) ∧
    (∀ (i : Fin 8) (c : Nat) (records : List CardRecord), (s.slot i).state ≠ .loading → 1 ≤ records.length →
      records.length ≤ 512 → (∀ r ∈ records, 1 ≤ r.pickRepeat ∧ r.pickRepeat ≤ 4) →
      exec (.writeCards i.1 c records) s = .next (s.responded .p .writeCards .wrongState [])) ∧
    (∀ (i c j : Nat) (cells : List (BitVec 4)), 8 ≤ i ∨ cells.length = 0 ∨ 8000 < cells.length →
      exec (.writeFigure i c j cells) s = .next (s.responded .p .writeFigure .badArgument [])) ∧
    (∀ (i c : Nat) (records : List CardRecord), 8 ≤ i ∨ records.length = 0 ∨ 512 < records.length →
      exec (.writeCards i c records) s = .next (s.responded .p .writeCards .badArgument []))

/-- R26, R27: COMMIT-DESIGN begins a scan of a LOADING slot and is answered at its end, or refused at once; the end of
the scan puts the slot in VALID with its non-void count, or leaves it LOADING with CHECK-FAILED; a break has suppressed
the response or not. (An end with no scan in progress changes nothing: the model's reading, log 3.) -/
def Obligations.CommitScanDecidesValid : Prop :=
  ∀ s : State,
    (s.plk.isOpen = true →
      (∀ i : Nat, 8 ≤ i → exec (.commitDesign i) s = .next (s.responded .p .commitDesign .badArgument [])) ∧
      (∀ i : Fin 8, (s.slot i).state ≠ .loading →
        exec (.commitDesign i.1) s = .next (s.responded .p .commitDesign .wrongState [])) ∧
      (∀ i : Fin 8, (s.slot i).state = .loading →
        exec (.commitDesign i.1) s = .next
          (({ s with fst := s.fst.modSlot i fun x => { x with scanning := true } }).awaited .p .commitDesign))) ∧
    (∀ (i : Fin 8) (d : Design), (s.slot i).scanning = true → (∀ j, j < i → (s.slot j).scanning = false) →
      s.design i = some d →
      (∀ c n, c < d.height → (d.card c).void = false → (∀ k, k < c → (d.card k).void = true) →
        n = ((List.range d.height).filter fun k => !(d.card k).void).length →
        exec .commitScanEnd s = .next
          (({ s with fst := s.fst.modSlot i fun x =>
            { x with scanning := false, state := .valid, nonVoid := some n } }).answeredLate .p .ok (b16 n ++ b16 c))) ∧
      ((∀ k, k < d.height → (d.card k).void = true) →
        exec .commitScanEnd s = .next
          (({ s with fst := s.fst.modSlot i fun x => { x with scanning := false } }).answeredLate .p .checkFailed []))) ∧
    ((∀ i, (s.slot i).scanning = false) → exec .commitScanEnd s = .next s)

/-- R28, R29, R21: REOPEN-DESIGN takes a VALID unheld slot to LOADING and keeps its contents; ERASE-DESIGN frees the
blocks of a LOADING or a VALID unheld slot and leaves it EMPTY; a held VALID slot is refused HELD by both. -/
def Obligations.ReopenAndEraseRespectHolds : Prop :=
  ∀ s : State, s.plk.isOpen = true →
    (∀ i : Nat, 8 ≤ i →
      exec (.reopenDesign i) s = .next (s.responded .p .reopenDesign .badArgument []) ∧
      exec (.eraseDesign i) s = .next (s.responded .p .eraseDesign .badArgument [])) ∧
    ∀ i : Fin 8,
      ((s.slot i).state ≠ .valid →
        exec (.reopenDesign i.1) s = .next (s.responded .p .reopenDesign .wrongState [])) ∧
      ((s.slot i).state = .valid → (s.slot i).held = true →
        exec (.reopenDesign i.1) s = .next (s.responded .p .reopenDesign .held []) ∧
        exec (.eraseDesign i.1) s = .next (s.responded .p .eraseDesign .held [])) ∧
      ((s.slot i).state = .valid → (s.slot i).held = false →
        exec (.reopenDesign i.1) s = .next
          (({ s with fst := s.fst.modSlot i fun x => { x with state := .loading, nonVoid := none } }).responded
            .p .reopenDesign .ok [])) ∧
      ((s.slot i).state = .empty →
        exec (.eraseDesign i.1) s = .next (s.responded .p .eraseDesign .ok (b16 s.fst.free))) ∧
      ((s.slot i).state = .loading ∨ (s.slot i).state = .valid ∧ (s.slot i).held = false → ∃ f : Fst,
        exec (.eraseDesign i.1) s = .next (({ s with fst := f }).responded .p .eraseDesign .ok (b16 f.free)) ∧
        f.free = s.fst.free + (s.slot i).blocks.length ∧ (∀ j, j ≠ i → f.slots.get j = s.slot j) ∧
        f.slots.get i = { s.slot i with state := .empty, design := none, blocks := [], nonVoid := none } ∧
        ∀ b : Fin 256, f.owner.get b = if b.1 ∈ (s.slot i).blocks then none else s.fst.owner.get b)

/-! ### Weaves and the harness -/

/-- R39, R48 to R51 outside READY: the checks of the map writes and of DEFINE-WEAVE in their order; taken in UNLOADED
they replace what they name and nothing else. -/
def Obligations.MapWritesInUnloaded : Prop :=
  ∀ s : State, s.plk.isOpen = true →
    -- numbers first
    (∀ (v w h : Nat) (lifts : List Bool), lifts.length = w * h → 32 ≤ v →
      exec (.defineWeave v w h lifts) s = .next (s.responded .p .defineWeave .badArgument [])) ∧
    (∀ (n : Nat) (r : Option SectionRecord), 16 ≤ n →
      exec (.setSection n r) s = .next (s.responded .p .setSection .badArgument [])) ∧
    (∀ h : Nat, 12287 < h →
      exec (.addDeadHook h) s = .next (s.responded .p .addDeadHook .badArgument []) ∧
      exec (.removeDeadHook h) s = .next (s.responded .p .removeDeadHook .badArgument [])) ∧
    (∀ hooks : List Nat, 128 < hooks.length →
      exec (.setDeadList hooks) s = .next (s.responded .p .setDeadList .badArgument [])) ∧
    -- DEFINE-WEAVE in any state
    (∀ (v : Fin 32) (w h : Nat) (lifts : List Bool), lifts.length = w * h →
      (s.heldNaming v.1 ≠ [] →
        exec (.defineWeave v.1 w h lifts) s = .next (s.responded .p .defineWeave .held [])) ∧
      (s.heldNaming v.1 = [] → (s.hmp.fixedNaming v.1 = [] ∨ s.seq.state = .unloaded) →
        exec (.defineWeave v.1 w h lifts) s = .next
          (if 1 ≤ w ∧ w ≤ 32 ∧ 1 ≤ h ∧ h ≤ 32 then
            ({ s with wlb := upd s.wlb v ⟨w, h, lifts⟩ }).responded .p .defineWeave .ok []
          else s.responded .p .defineWeave .badArgument []))) ∧
    -- the other map writes in UNLOADED
    (s.seq.state = .unloaded →
      (∀ (n : Fin 16) (r : Option SectionRecord),
        exec (.setSection n.1 r) s = .next
          (if sectionArgOk r = true then
            ({ s with hmp := { s.hmp with sections := upd s.hmp.sections n r } }).responded .p .setSection .ok []
          else s.responded .p .setSection .badArgument [])) ∧
      (∀ hooks : List Nat, hooks.length ≤ 128 →
        exec (.setDeadList hooks) s = .next
          (if (∀ h ∈ hooks, h ≤ 12287) ∧ hooks.Pairwise (· < ·) then
            ({ s with hmp := { s.hmp with dead := hooks } }).responded .p .setDeadList .ok []
          else s.responded .p .setDeadList .badArgument [])) ∧
      (∀ h : Nat, h ≤ 12287 → h ∉ s.hmp.dead → 128 ≤ s.hmp.dead.length →
        exec (.addDeadHook h) s = .next (s.responded .p .addDeadHook .noSpace [])) ∧
      (∀ h : Nat, h ≤ 12287 → h ∈ s.hmp.dead →
        exec (.addDeadHook h) s = .next (s.responded .p .addDeadHook .ok (b8 s.hmp.dead.length))) ∧
      (∀ h : Nat, h ≤ 12287 → h ∉ s.hmp.dead → s.hmp.dead.length < 128 → s.hmp.dead.Pairwise (· < ·) →
        ∃ dead : List Nat,
        exec (.addDeadHook h) s = .next
          (({ s with hmp := { s.hmp with dead := dead } }).responded .p .addDeadHook .ok (b8 dead.length)) ∧
        dead.Pairwise (· < ·) ∧ ∀ x, x ∈ dead ↔ x = h ∨ x ∈ s.hmp.dead) ∧
      (∀ h : Nat, h ≤ 12287 →
        exec (.removeDeadHook h) s = .next
          (({ s with hmp := { s.hmp with dead := s.hmp.dead.filter fun x => x ≠ h } }).responded .p .removeDeadHook .ok
            (b8 (s.hmp.dead.filter fun x => x ≠ h).length)))) ∧
    -- anywhere else but READY with no grant
    (s.seq.state ≠ .unloaded → ¬(s.seq.state = .ready ∧ s.seq.grant = .none) →
      (∀ (n : Fin 16) (r : Option SectionRecord),
        exec (.setSection n.1 r) s = .next (s.responded .p .setSection .wrongState [])) ∧
      (∀ hooks : List Nat, hooks.length ≤ 128 →
        exec (.setDeadList hooks) s = .next (s.responded .p .setDeadList .wrongState [])) ∧
      (∀ h : Nat, h ≤ 12287 →
        exec (.addDeadHook h) s = .next (s.responded .p .addDeadHook .wrongState []) ∧
        exec (.removeDeadHook h) s = .next (s.responded .p .removeDeadHook .wrongState [])) ∧
      (∀ (v : Fin 32) (w h : Nat) (lifts : List Bool), lifts.length = w * h → s.heldNaming v.1 = [] →
        s.hmp.fixedNaming v.1 ≠ [] →
        exec (.defineWeave v.1 w h lifts) s = .next (s.responded .p .defineWeave .wrongState [])))

/-- R52: a map write accepted in READY changes the map and, in the same step, takes the sequencer to PRESENTING with a
PRESENT job that expands the cursor pick anew; cursor, history and change queue are untouched; READY-CHANGED is raised.
The presentation is owed until its TAKE completes, also through a guard entry: it follows the guard exit (`State.guardLeft`;
`representOwed`: the model's field, log 40). -/
def Obligations.MapWritesInReadyRepresent : Prop :=
  ∀ (s : State) (c : Cursor), s.plk.isOpen = true → s.idleReady → s.seq.cursor = some c →
    (∀ (n : Fin 16) (r : Option SectionRecord), sectionArgOk r = true → ∃ t u : State,
      exec (.setSection n.1 r) s = .next t ∧ t = u.responded .p .setSection .ok [] ∧
      t.hmp = { s.hmp with sections := upd s.hmp.sections n r } ∧ t.wlb = s.wlb ∧ s.presentBegun t c ∧ t.seq.representOwed = .nextTake ∧
      t.seq.history = s.seq.history ∧ t.chu = s.chu ∧ .readyChanged ∈ t.dlk.notices) ∧
    (∀ hooks : List Nat, hooks.length ≤ 128 → (∀ h ∈ hooks, h ≤ 12287) → hooks.Pairwise (· < ·) → ∃ t u : State,
      exec (.setDeadList hooks) s = .next t ∧ t = u.responded .p .setDeadList .ok [] ∧
      t.hmp = { s.hmp with dead := hooks } ∧ t.wlb = s.wlb ∧ s.presentBegun t c ∧ t.seq.representOwed = .nextTake ∧
      t.seq.history = s.seq.history ∧ t.chu = s.chu ∧ .readyChanged ∈ t.dlk.notices) ∧
    (∀ h : Nat, h ≤ 12287 → (h ∈ s.hmp.dead ∨ s.hmp.dead.length < 128) → s.hmp.dead.Pairwise (· < ·) → ∃ t u : State,
      exec (.addDeadHook h) s = .next t ∧ t = u.responded .p .addDeadHook .ok (b8 t.hmp.dead.length) ∧
      t.hmp.sections = s.hmp.sections ∧ t.hmp.dead.Pairwise (· < ·) ∧ (∀ x, x ∈ t.hmp.dead ↔ x = h ∨ x ∈ s.hmp.dead) ∧
      t.wlb = s.wlb ∧ s.presentBegun t c ∧ t.seq.representOwed = .nextTake ∧ t.seq.history = s.seq.history ∧ t.chu = s.chu ∧
      .readyChanged ∈ t.dlk.notices) ∧
    (∀ h : Nat, h ≤ 12287 → ∃ t u : State,
      exec (.removeDeadHook h) s = .next t ∧ t = u.responded .p .removeDeadHook .ok (b8 t.hmp.dead.length) ∧
      t.hmp = { s.hmp with dead := s.hmp.dead.filter fun x => x ≠ h } ∧ t.wlb = s.wlb ∧ s.presentBegun t c ∧ t.seq.representOwed = .nextTake ∧
      t.seq.history = s.seq.history ∧ t.chu = s.chu ∧ .readyChanged ∈ t.dlk.notices) ∧
    (∀ (v : Fin 32) (w h : Nat) (lifts : List Bool), lifts.length = w * h → 1 ≤ w → w ≤ 32 → 1 ≤ h → h ≤ 32 →
      s.heldNaming v.1 = [] → s.hmp.fixedNaming v.1 ≠ [] → ∃ t u : State,
      exec (.defineWeave v.1 w h lifts) s = .next t ∧ t = u.responded .p .defineWeave .ok [] ∧ t.hmp = s.hmp ∧
      t.wlb = upd s.wlb v ⟨w, h, lifts⟩ ∧ s.presentBegun t c ∧ t.seq.representOwed = .nextTake ∧ t.seq.history = s.seq.history ∧ t.chu = s.chu ∧
      .readyChanged ∈ t.dlk.notices)

/-- R43 to R46, R63: the lift of a hook in an image. Dead, in no section or in a DOWN section: lowered. FIXED: the weave
of the section at end offset i + shift and the pick's phase. FIGURE: the column of the tie, the cell, the weave its
effect names, the same end offset. -/
def Obligations.HookLiftFollowsMap : Prop :=
  ∀ (s : State) (c : Cursor) (h : Nat),
    (h ∈ s.hmp.dead → s.lift c h = false) ∧
    ((∀ n f l, (s.hmp.sections.get n = some (.down f l) ∨
        (∃ v w, s.hmp.sections.get n = some (.fixed f l v w)) ∨
        (∃ t d a z w, s.hmp.sections.get n = some (.figure f l t d a z w))) → ¬(f ≤ h ∧ h ≤ l)) → s.lift c h = false) ∧
    (∀ (n : Fin 16) (r : SectionRecord), s.hmp.sections.get n = some r → firstHook r ≤ h → h ≤ lastHook r →
      (∀ m, m < n → ∀ q, s.hmp.sections.get m = some q → ¬(firstHook q ≤ h ∧ h ≤ lastHook q)) → h ∉ s.hmp.dead →
      (∀ f l, r = .down f l → s.lift c h = false) ∧
      (∀ (f l : Nat) (v : Fin 32) (w : Nat), r = .fixed f l v.1 w →
        s.lift c h = (s.wlb.get v).lifts.getD
          (c.phase.toNat % (s.wlb.get v).height * (s.wlb.get v).width + (h - f + w) % (s.wlb.get v).width) false) ∧
      (∀ (f l : Nat) (t : Tie) (d : TieDir) (a z w : Nat) (g : Design) (i k step : Nat) (v : Fin 32),
        r = .figure f l t d a z w → s.design c.slot = some g → i = h - f → 1 ≤ g.width →
        k = i % (2 * z - 2) →
        step = (match t with | .straight => i % z | .point => if k < z then k else 2 * z - 2 - k) →
        g.map.get (g.cell c.card (match d with
          | .ascending => (a + step) % g.width
          | .descending => (((a : Int) - step) % (g.width : Int)).toNat)).toFin = v.1 →
        s.lift c h = (s.wlb.get v).lifts.getD
          (c.phase.toNat % (s.wlb.get v).height * (s.wlb.get v).width + (i + w) % (s.wlb.get v).width) false))

/-! ### The weft unit -/

/-- R76 to R79: the tables of SET-FEEDER, FEEDER-STATE and RESTORE-FEEDER, their refusals, and what they leave. -/
def Obligations.FeederRequestsFollowTables : Prop :=
  ∀ s : State,
    (s.plk.isOpen = true →
      (∀ (i : Nat) (c : Service) (k : Option Nat), (8 ≤ i ∨ ∃ n, k = some n ∧ (n = 0 ∨ 7 < n)) →
        exec (.setFeeder i c k) s = .next (s.responded .p .setFeeder .badArgument [])) ∧
      (∀ (f : Fin 8) (c : Service) (k : Option Nat), (∀ n, k = some n → 1 ≤ n ∧ n ≤ 7) → ∃ t : State,
        exec (.setFeeder f.1 c k) s = .next t ∧
        s.feederBecomes t .p .setFeeder f { s.wft.feeders.get f with state :=
          (match c, (s.wft.feeders.get f).state, (s.wft.feeders.get f).mark with
            | .into, .off, false => .ready
            | .into, .off, true => .suspended
            | .out, _, _ => .off
            | _, x, _ => x) } (k.getD s.wft.limit)) ∧
      (∀ i : Nat, 8 ≤ i → exec (.restoreFeeder i) s = .next (s.responded .p .restoreFeeder .badArgument [])) ∧
      (∀ f : Fin 8, (s.wft.feeders.get f).state = .suspended → ∃ t : State, exec (.restoreFeeder f.1) s = .next t ∧
        s.feederBecomes t .p .restoreFeeder f
          { s.wft.feeders.get f with state := .ready, mark := false, failures := 0 } s.wft.limit) ∧
      (∀ f : Fin 8, (s.wft.feeders.get f).state = .off → (s.wft.feeders.get f).mark = true → ∃ t : State,
        exec (.restoreFeeder f.1) s = .next t ∧
        s.feederBecomes t .p .restoreFeeder f { s.wft.feeders.get f with mark := false, failures := 0 } s.wft.limit) ∧
      (∀ f : Fin 8, (s.wft.feeders.get f).state = .ready ∨
          ((s.wft.feeders.get f).state = .off ∧ (s.wft.feeders.get f).mark = false) →
        exec (.restoreFeeder f.1) s = .next (s.responded .p .restoreFeeder .wrongState []))) ∧
    (s.wlk.isOpen = true →
      (∀ (i : Nat) (r : FeederReport), 8 ≤ i →
        exec (.feederState i r) s = .next (s.responded .w .feederState .badArgument [])) ∧
      (∀ (f : Fin 8) (r : FeederReport), ∃ t : State, exec (.feederState f.1 r) s = .next t ∧
        s.feederBecomes t .w .feederState f { s.wft.feeders.get f with state :=
          (match r, (s.wft.feeders.get f).state, (s.wft.feeders.get f).mark with
            | .out, _, _ => .off
            | .back, .off, false => .ready
            | .back, .off, true => .suspended
            | .back, x, _ => x) } s.wft.limit))

/-- R84, R85, R83, R81 at the requests that move a feeder, in every sequencer state. When it leaves READY, the pending plan
and the staged plan that name it are planned again (`replansFrom`), FEEDER and COLOUR cards alike, each group first set back
to the state its plan recorded; no plan names the feeder afterwards, and PLAN-CHANGED is raised when one did. When it enters
READY, the plans that name NONE are planned again in the same way (`fillsPlans`) and the others are kept. A plan that comes
out NONE in RUNNING hands FEEDER-UNAVAILABLE to GRD (once for the event: log 14). -/
def Obligations.FeederChangesReplan : Prop :=
  ∀ (s : State) (f : Fin 8),
    (∀ (c : Instr) (l : LinkId) (r : Request) (k : Option Nat), (s.link l).isOpen = true →
      (s.wft.feeders.get f).state = .ready →
      (c = .feederState f.1 .out ∧ l = .w ∧ r = .feederState ∧ k = none ∨
        c = .setFeeder f.1 .out k ∧ l = .p ∧ r = .setFeeder ∧ ∀ n, k = some n → 1 ≤ n ∧ n ≤ 7) → ∃ u t : State,
      u = raise .p .feederStateChanged (({ s with wft := { s.wft with
        feeders := upd s.wft.feeders f { s.wft.feeders.get f with state := .off }
        limit := k.getD s.wft.limit } } : State).awaited l r) ∧
      u.replansFrom f t ∧ exec c s = .next (t.answeredLate l .ok [])) ∧
    (∀ (c : Instr) (l : LinkId) (r : Request) (k : Option Nat) (x : Feeder), (s.link l).isOpen = true →
      (c = .feederState f.1 .back ∧ l = .w ∧ r = .feederState ∧ k = none ∧ (s.wft.feeders.get f).state = .off ∧
          (s.wft.feeders.get f).mark = false ∧ x = { s.wft.feeders.get f with state := .ready } ∨
        c = .setFeeder f.1 .into k ∧ l = .p ∧ r = .setFeeder ∧ (∀ n, k = some n → 1 ≤ n ∧ n ≤ 7) ∧
          (s.wft.feeders.get f).state = .off ∧ (s.wft.feeders.get f).mark = false ∧
          x = { s.wft.feeders.get f with state := .ready } ∨
        c = .restoreFeeder f.1 ∧ l = .p ∧ r = .restoreFeeder ∧ k = none ∧ (s.wft.feeders.get f).state = .suspended ∧
          x = { s.wft.feeders.get f with state := .ready, mark := false, failures := 0 }) → ∃ u t : State,
      u = raise .p .feederStateChanged (({ s with wft := { s.wft with
        feeders := upd s.wft.feeders f x
        limit := k.getD s.wft.limit } } : State).awaited l r) ∧
      u.fillsPlans t ∧ exec c s = .next (t.answeredLate l .ok [])) ∧
    ((s.wft.feeders.get f).state = .ready → ∀ c : Instr,
      (c = .feederState f.1 .out ∧ s.wlk.isOpen = true ∨ c = .setFeeder f.1 .out none ∧ s.plk.isOpen = true) →
      ∃ t : State, exec c s = .next t ∧ (∀ p, t.pendingPlan = some p → p.feeder ≠ some f) ∧
        (∀ p, t.xpe.staging.plan = some p → p.feeder ≠ some f) ∧
        ((∃ p, (s.pendingPlan = some p ∨ s.xpe.staging.plan = some p) ∧ p.feeder = some f) →
          .planChanged ∈ t.wlk.notices)) ∧
    ((s.wft.feeders.get f).state ≠ .ready → (s.wft.feeders.get f).mark = false → s.seq.state ≠ .running →
      ∀ c : Instr,
      (c = .feederState f.1 .back ∧ s.wlk.isOpen = true ∧ (s.wft.feeders.get f).state = .off ∨
        c = .setFeeder f.1 .into none ∧ s.plk.isOpen = true ∧ (s.wft.feeders.get f).state = .off) →
      ∃ t : State, exec c s = .next t ∧
        (∀ p, s.pendingPlan = some p → p.feeder ≠ none → t.pendingPlan = some p) ∧
        (∀ p, s.pendingPlan = some p → p.feeder = none → (s.cardOf p.cursor).weft = .feeder f →
          t.pendingPlan = some { p with feeder := some f, group := none } ∧ .planChanged ∈ t.wlk.notices)) ∧
    ((s.wft.feeders.get f).state = .suspended → s.seq.state ≠ .running → s.plk.isOpen = true →
      ∃ t : State, exec (.restoreFeeder f.1) s = .next t ∧
        (∀ p, s.pendingPlan = some p → p.feeder ≠ none → t.pendingPlan = some p) ∧
        (∀ p, s.pendingPlan = some p → p.feeder = none → (s.cardOf p.cursor).weft = .feeder f →
          t.pendingPlan = some { p with feeder := some f, group := none } ∧ .planChanged ∈ t.wlk.notices))

/-- R81: the table by which WFT chooses the feeder of a pick, with the alternation state after. -/
def Obligations.PlanningChoosesReadyFeeder : Prop :=
  ∀ w : Wft,
    (∀ f, w.choose (.feeder f) = ⟨if (w.feeders.get f).state = .ready then some f else none, none, w⟩) ∧
    ∀ g : Fin 8, ∃ found : PlannedGroup, found = ⟨g, (w.groups.get g).alternation⟩ ∧
      ((w.groups.get g).primary = none → w.choose (.colour g) = ⟨none, some found, w⟩) ∧
      (∀ p q, (w.groups.get g).primary = some p → (w.groups.get g).partner = some q →
        (w.feeders.get p).state = .ready → (w.feeders.get q).state = .ready →
        w.choose (.colour g) = (match (w.groups.get g).mode, (w.groups.get g).alternation with
          | .single, _ => ⟨some p, some found, w⟩
          | .alternate, .primaryNext => ⟨some p, some found,
              { w with groups := upd w.groups g { w.groups.get g with alternation := .partnerNext } }⟩
          | .alternate, .partnerNext => ⟨some q, some found,
              { w with groups := upd w.groups g { w.groups.get g with alternation := .primaryNext } }⟩)) ∧
      (∀ p, (w.groups.get g).primary = some p → (w.feeders.get p).state = .ready →
        (∀ q, (w.groups.get g).partner = some q → (w.feeders.get q).state ≠ .ready) →
        w.choose (.colour g) = ⟨some p, some found, w⟩) ∧
      (∀ p q, (w.groups.get g).primary = some p → (w.groups.get g).partner = some q →
        (w.feeders.get p).state ≠ .ready → (w.feeders.get q).state = .ready →
        w.choose (.colour g) = ⟨some q, some found, w⟩) ∧
      (∀ p, (w.groups.get g).primary = some p → (w.feeders.get p).state ≠ .ready →
        (∀ q, (w.groups.get g).partner = some q → (w.feeders.get q).state ≠ .ready) →
        w.choose (.colour g) = ⟨none, some found, w⟩)

/-- R80: SET-GROUP is checked in its order; accepted, it replaces the group with PRIMARY-NEXT, and in READY a pending
plan that names the group is planned afresh. -/
def Obligations.SetGroupReplacesRecord : Prop :=
  ∀ s : State, s.plk.isOpen = true →
    (∀ (g : Nat) (p q : Option Nat) (m : GroupMode), 8 ≤ g →
      exec (.setGroup g p q m) s = .next (s.responded .p .setGroup .badArgument [])) ∧
    (∀ (g : Fin 8) (p q : Option Nat) (m : GroupMode), ¬s.openToSettings →
      exec (.setGroup g.1 p q m) s = .next (s.responded .p .setGroup .wrongState [])) ∧
    (∀ (g : Fin 8) (p q : Option Nat) (m : GroupMode), s.openToSettings →
      ((∃ n, (p = some n ∨ q = some n) ∧ 8 ≤ n) ∨ (q ≠ none ∧ (p = none ∨ p = q)) ∨ (m = .alternate ∧ q = none)) →
      exec (.setGroup g.1 p q m) s = .next (s.responded .p .setGroup .badArgument [])) ∧
    (∀ (g : Fin 8) (p q : Option (Fin 8)) (m : GroupMode), s.openToSettings → (q ≠ none → p ≠ none ∧ p ≠ q) →
      (m = .alternate → q ≠ none) → ∃ w : Wft, w = { s.wft with groups := upd s.wft.groups g ⟨p, q, m, .primaryNext⟩ } ∧
      ((s.seq.state = .unloaded ∨ ∀ x, s.pendingPlan = some x → ∀ y, x.group = some y → y.group ≠ g) →
        exec (.setGroup g.1 (p.map (·.1)) (q.map (·.1)) m) s = .next
          (({ s with wft := w }).responded .p .setGroup .ok [])) ∧
      (∀ (x : Plan) (y : PlannedGroup), s.seq.state = .ready → s.pendingPlan = some x → x.group = some y → y.group = g →
        ∃ t : State, exec (.setGroup g.1 (p.map (·.1)) (q.map (·.1)) m) s = .next t ∧
          t.wft = (w.choose (s.cardOf x.cursor).weft).wft ∧
          t.pendingPlan = some { x with
            feeder := (w.choose (s.cardOf x.cursor).weft).feeder, group := (w.choose (s.cardOf x.cursor).weft).group } ∧
          .planChanged ∈ t.wlk.notices ∧ t.plk.response = some ⟨.ok, []⟩ ∧ t.seq = s.seq))

/-- R91, R92: WEFT-REPORT by what its serial names: the pending pick, an entry of the history, or neither. (That a second
failure report replaces the first is the model's reading: log 27.) -/
def Obligations.WeftReportAnsweredBySerial : Prop :=
  ∀ (s : State) (n : Half) (o : Insertion), s.wlk.isOpen = true →
    (∀ p, s.pendingPlan = some p → p.cursor.serial = n →
      (o = .inserted → (∃ x, s.wft.report = some ⟨n, x⟩ ∧ x ≠ .inserted) →
        exec (.weftReport n o) s = .next (s.responded .w .weftReport .ok [])) ∧
      (¬(o = .inserted ∧ ∃ x, s.wft.report = some ⟨n, x⟩ ∧ x ≠ .inserted) →
        exec (.weftReport n o) s = .next
          (({ s with wft := { s.wft with report := some ⟨n, o⟩ } }).responded .w .weftReport .ok []))) ∧
    ((∀ p, s.pendingPlan = some p → p.cursor.serial ≠ n) →
      ((∀ e ∈ s.seq.history, e.cursor.serial ≠ n) →
        exec (.weftReport n o) s = .next (s.responded .w .weftReport .stale [])) ∧
      (∀ (a b : List HistEntry) (e : HistEntry), s.seq.history = a ++ e :: b → e.cursor.serial = n →
        (∀ x ∈ a ++ b, x.cursor.serial ≠ n) →
        (o = .inserted ∨ e.suspect = true → exec (.weftReport n o) s = .next (s.responded .w .weftReport .ok [])) ∧
        (o ≠ .inserted → e.suspect = false → ∃ t : State, exec (.weftReport n o) s = .next t ∧
          t.wlk.response = some ⟨.ok, []⟩ ∧ t.seq.history = a ++ { e with suspect := true } :: b ∧
          t.seq.cursor = s.seq.cursor ∧ t.chu = s.chu ∧
          (∀ f : Fin 8, t.wft.feeders.get f =
            if e.feeder = some f then
              { s.wft.feeders.get f with
                faulted := true
                total := if (s.wft.feeders.get f).total < 65535 then (s.wft.feeders.get f).total + 1
                  else (s.wft.feeders.get f).total }
            else s.wft.feeders.get f) ∧
          t.grd.totals.get Trigger.weftFail.idx = (if s.grd.totals.get Trigger.weftFail.idx < 65535 then
            s.grd.totals.get Trigger.weftFail.idx + 1 else s.grd.totals.get Trigger.weftFail.idx) ∧
          (s.seq.state.guarded → s.grd.isEnabled .weftFail = true → t.seq.state = .guard ∨ t.seq.state = .halted))))

/-! ### The hook chain -/

/-- R100, R112, R115: CENSUS, HOOK-TEST and a status refresh begin when their states allow it, and are answered at their
end; otherwise they are refused in the order of their checks (that the module numbers are checked before the state is the
model's order: log 13). A refresh with census 0 is over at once (log 19). Then what the end of a census and of a hook test
leave: a marker that returns after no whole number of modules from 1 to 96 is CHAIN-OPEN (the model's reading, log 21), a
stage nothing came back from fails (log 22), an end of no test in progress changes nothing (log 3). -/
def Obligations.BusTestsBeginAndEnd : Prop :=
  (∀ s : State, s.plk.isOpen = true →
    (s.seq.state = .unloaded → s.hcc.transfer = .idle →
      exec .census s = .next (({ s with hcc := { s.hcc with busTest := .census } }).awaited .p .census) ∧
      (1 ≤ s.hcc.census → s.hcc.census ≤ 96 →
        exec .hookTest s = .next (({ s with hcc := { s.hcc with busTest := .hookTest } }).awaited .p .hookTest)) ∧
      (¬(1 ≤ s.hcc.census ∧ s.hcc.census ≤ 96) →
        exec .hookTest s = .next
          (({ s with hcc := { s.hcc with hookTest := some .notRun } }).responded .p .hookTest .checkFailed []))) ∧
    (¬(s.seq.state = .unloaded ∧ s.hcc.transfer = .idle) →
      exec .census s = .next (s.responded .p .census .wrongState []) ∧
      exec .hookTest s = .next (s.responded .p .hookTest .wrongState [])) ∧
    (∀ clear : List Nat,
      ((∃ m ∈ clear, 96 ≤ m) → exec (.statusRefresh clear) s = .next (s.responded .p .readModules .badArgument [])) ∧
      ((∀ m ∈ clear, m < 96) →
        ¬((s.openToSettings ∨ s.seq.state = .guard ∨ s.seq.state = .halted) ∧ s.hcc.transfer = .idle) →
        exec (.statusRefresh clear) s = .next (s.responded .p .readModules .wrongState [])) ∧
      ((∀ m ∈ clear, m < 96) → (s.openToSettings ∨ s.seq.state = .guard ∨ s.seq.state = .halted) →
        s.hcc.transfer = .idle →
        (s.hcc.census ≠ 0 →
          exec (.statusRefresh clear) s = .next
            (({ s with hcc := { s.hcc with transfer := .refreshing, refreshClear := clear } }).awaited .p .readModules)) ∧
        (s.hcc.census = 0 → ∃ t : State, exec (.statusRefresh clear) s = .next t ∧ t.hcc.faultLevel = false ∧
          t.grd.moduleLevel = false ∧ (∃ payload, t.plk.response = some ⟨.ok, payload⟩))))) ∧
  ∀ s : State,
    (s.hcc.busTest = .census → s.seq.state = .unloaded → ∃ f : Fst,
      (s.hcc.latched.plan = none → f = s.fst) ∧
      (∀ p, s.hcc.latched.plan = some p → f = s.fst.modSlot p.cursor.slot fun x =>
        { x with refs := { x.refs with latched := x.refs.latched - 1 } }) ∧
      ∀ (m : Option Nat) (k : Nat) (result : Byte),
        ((∃ n, m = some n ∧ n = 136 * k ∧ 1 ≤ k ∧ k ≤ 96) ∧ result = 0 ∨
          (∀ n, m = some n → ¬∃ j, n = 136 * j ∧ 1 ≤ j ∧ j ≤ 96) ∧ k = 0 ∧ result = 1) →
        exec (.censusResult m) s = .next
          (({ s with
            fst := f
            hcc := { s.hcc with
              census := k, latched := .unknown, status := Vector.replicate 96 .none, faultLevel := false, busTest := .none }
            grd := { s.grd with moduleLevel := false } }).answeredLate .p .ok [result, BitVec.ofNat 8 k])) ∧
    (s.hcc.busTest = .hookTest → ∀ stages : List StageReturn,
      ((∀ k, k < s.hcc.census → stages[k]? = some ⟨.intact, .intact, .intact, .intact⟩) →
        exec (.hookTestEnd stages) s = .next
          (({ s with hcc := { s.hcc with hookTest := some .passed, busTest := .none } }).answeredLate .p .ok [96])) ∧
      (∀ k, k < s.hcc.census → stages[k]? ≠ some ⟨.intact, .intact, .intact, .intact⟩ →
        (∀ j, j < k → stages[j]? = some ⟨.intact, .intact, .intact, .intact⟩) →
        exec (.hookTestEnd stages) s = .next
          (({ s with hcc := { s.hcc with hookTest := some (.failed k), busTest := .none } }).answeredLate .p .ok
            [BitVec.ofNat 8 k]))) ∧
    (s.hcc.busTest ≠ .census → ∀ m, exec (.censusResult m) s = .next s) ∧
    (s.hcc.busTest ≠ .hookTest → ∀ st, exec (.hookTestEnd st) s = .next s)

/-- R115, R106: a status refresh that completes records the statuses of the chain, sets the level, answers DONE and hands
MODULE-FAULT to GRD when one is not GOOD. When the level falls in GUARD the exit check is made (R170), and guard is left at
rest without coasting or another level cause (what follows an exit to READY for a map write: log 40; an order that waits for
a TAKE: log 16). A module that sent nothing counts as none of the codes
(log 20). The answer is gathered before a trigger or an exit (log 23). -/
def Obligations.RefreshCompletionRecordsStatuses : Prop :=
  ∀ (s : State) (st : List EchoStatus),
    (s.hcc.transfer ≠ .refreshing → exec (.refreshCompletion st) s = .next s) ∧
    (s.hcc.transfer = .refreshing → ∃ (status : Vector ModuleStatus 96) (errors : Vector Nat 96) (h : Hcc),
      h = { s.hcc with status := status, transfer := .idle, refreshClear := [], faultLevel := h.faultLevel } ∧
      (∀ m : Fin 96, status.get m = if m.1 < s.hcc.census then
        (match st[m.1]? with
          | some .good => .good
          | some .supplyLow => .supplyLow
          | some .overheat => .overheat
          | _ => .driverFault) else s.hcc.status.get m) ∧
      (h.faultLevel = true ↔ ∃ m : Fin 96, m.1 < s.hcc.census ∧ status.get m ≠ .good) ∧
      (∀ m : Fin 96, errors.get m = if m.1 ∈ s.hcc.refreshClear then 0 else s.hcc.echoErrors.get m) ∧
      (h.faultLevel = false → (s.hcc.faultLevel = false ∨ s.seq.state ≠ .guard) →
        exec (.refreshCompletion st) s = .next
          (({ s with hcc := { h with echoErrors := errors }, grd := { s.grd with moduleLevel := false } }).answeredLate
            .p .ok (modulesRecord h ++ [0]))) ∧
      (h.faultLevel = false → s.hcc.faultLevel = true → s.seq.state = .guard → ∃ u : State,
        u = ({ s with hcc := { h with echoErrors := errors }, grd := { s.grd with moduleLevel := false } } : State).answeredLate
          .p .ok (modulesRecord h ++ [0]) ∧
        (¬(s.ang.rest = .atRest ∧ s.seq.coasting = false ∧ u.grd.levelCause = false) →
          exec (.refreshCompletion st) s = .next u) ∧
        (s.ang.rest = .atRest → s.seq.coasting = false → u.grd.levelCause = false → ∃ t : State,
          exec (.refreshCompletion st) s = .next t ∧ s.guardLeft s.grd.run s.grd.count t ∧
            (t.link .p).response = (u.link .p).response)) ∧
      (h.faultLevel = true → exec (.refreshCompletion st) s = .next (trigger .moduleFault
        (({ s with hcc := { h with echoErrors := errors }, grd := { s.grd with moduleLevel := true } } : State).answeredLate
          .p .ok (modulesRecord h ++ [0])))) ∧
      (h.faultLevel = true → ∃ t : State, exec (.refreshCompletion st) s = .next t ∧
        t.hcc.status = status ∧ t.hcc.echoErrors = errors ∧ t.hcc.faultLevel = true ∧ t.grd.moduleLevel = true ∧
        (s.seq.state.guarded → s.grd.isEnabled .moduleFault = true →
          (t.seq.state = .guard ∨ t.seq.state = .halted) ∧ .moduleFault ∈ t.grd.causes)))

/-- R116: SET-ECHO-BUDGET replaces the threshold and refills the counter in every state; a value outside 1 to 255 is
refused. Whichever of it and a transfer completion is taken first, the counter ends within 1 and the threshold. -/
def Obligations.SetEchoBudgetRefillsCounter : Prop :=
  ∀ (s : State) (k : Nat), s.plk.isOpen = true →
    (¬(1 ≤ k ∧ k ≤ 255) → exec (.setEchoBudget k) s = .next (s.responded .p .setEchoBudget .badArgument [])) ∧
    (1 ≤ k → k ≤ 255 →
      exec (.setEchoBudget k) s = .next
        (({ s with hcc := { s.hcc with threshold := k, budget := k } }).responded .p .setEchoBudget .ok []) ∧
      ∀ (n : Half) (echo : List ModuleEcho), s.hcc.transfer = .shifting n → s.seq.state ≠ .guard →
        (∃ (t u : State) (bad : List Nat), exec (.setEchoBudget k) s = .next t ∧
          exec (.transferCompletion echo) t = .next u ∧ 1 ≤ u.hcc.budget ∧ u.hcc.budget ≤ k ∧ u.hcc.threshold = k ∧
          u.hcc.lastCompare = some ⟨n, decide (s.hcc.latched ≠ .unknown ∧ s.hcc.census ≠ 0), bad⟩ ∧
          u.hcc.budget = if s.hcc.latched = .unknown ∨ s.hcc.census = 0 ∨ bad = [] ∨ k = 1 then k else k - 1) ∧
        (∃ (t u : State) (bad : List Nat), exec (.transferCompletion echo) s = .next t ∧
          exec (.setEchoBudget k) t = .next u ∧
          t.hcc.lastCompare = some ⟨n, decide (s.hcc.latched ≠ .unknown ∧ s.hcc.census ≠ 0), bad⟩ ∧
          t.hcc.budget = (if s.hcc.latched = .unknown ∨ s.hcc.census = 0 then s.hcc.budget
            else if bad = [] ∨ s.hcc.budget ≤ 1 then s.hcc.threshold else s.hcc.budget - 1) ∧
          u.hcc.budget = k ∧ u.hcc.threshold = k))

/-- R65, R70, R62, R63: the completion of an expansion makes the staged pick COMPLETE with the image of its snapshot; a
PRESENT job goes on to its transfer; a completion for no job is none (log 3). -/
def Obligations.JobCompletionFillsStaging : Prop :=
  ∀ s : State,
    (s.xpe.job = none → exec .jobCompletion s = .next s) ∧
    (∀ (j : Job) (p : Plan), s.xpe.job = some j → s.xpe.staging = .filling p → ∃ image : List Bool,
      image.length = j.hooks ∧ (∀ h, h < j.hooks → image[h]? = some (s.lift j.snapshot h)) ∧
      ((∀ k, s.seq.present = some k → k.stage ≠ .expanding) →
        exec .jobCompletion s = .next { s with xpe := ⟨none, .complete { p with complete := true } image⟩ }) ∧
      (∀ k, s.seq.present = some k → k.stage = .expanding → s.hcc.census ≠ 0 → ¬s.takes → s.hcc.transfer ≠ .refreshing →
        exec .jobCompletion s = .next { s with
          xpe := ⟨none, .complete { p with complete := true } image⟩
          seq := { s.seq with present := some { k with stage := .transferring } }
          hcc := { s.hcc with transfer := .shifting p.cursor.serial } }))

/-- R103 to R106, R114: the completion of a transfer: the comparison against the latched-image record outside the dead
hooks, the counters, the budget, the statuses and the level, the notice, and the TAKE of a PRESENT job. When the level falls in
GUARD at rest, without coasting or another level cause, guard is left (R170; what follows an exit to READY for a map
write: log 40; an order that waits for a TAKE: log 16). A lift no module echoed
reads lowered, and a module that sent no status counts as none of the codes (log 20). -/
def Obligations.TransferCompletionComparesEcho : Prop :=
  ∀ (s : State) (echo : List ModuleEcho),
    ((∀ n, s.hcc.transfer ≠ .shifting n) → exec (.transferCompletion echo) s = .next s) ∧
    (∀ n exits, s.hcc.transfer = .shifting n →
      (exits ↔ s.seq.state = .guard ∧ s.ang.rest = .atRest ∧ s.seq.coasting = false ∧ s.hcc.faultLevel = true ∧
        ¬(s.grd.warp = true ∧ s.grd.isEnabled .warpStop = true) ∧
        ∀ m : Fin 96, m.1 < s.hcc.census → echo[m.1]?.map (·.status) = some .good) →
      (exits → s.seq.present = none → ∃ t : State, exec (.transferCompletion echo) s = .next t ∧
        s.guardLeft s.grd.run s.grd.count t) ∧
      (¬exits → ∃ (t : State) (bad : List Nat) (compared spent : Bool), exec (.transferCompletion echo) s = .next t ∧
      (compared = true ↔ s.hcc.latched ≠ .unknown ∧ s.hcc.census ≠ 0) ∧ bad.Pairwise (· < ·) ∧
      (∀ m, m ∈ bad ↔ compared = true ∧ m < s.hcc.census ∧ ∃ j, j < 128 ∧ 128 * m + j ∉ s.hmp.dead ∧
        (match echo[m]? with | some x => x.lifts.getD j false | none => false) ≠
          (match s.hcc.latched with | .pick _ image => image.getD (128 * m + j) false | _ => false)) ∧
      (spent = true ↔ compared = true ∧ bad ≠ [] ∧ s.hcc.budget ≤ 1) ∧
      t.hcc.lastCompare = some ⟨n, compared, bad⟩ ∧
      (∀ m : Fin 96, t.hcc.echoErrors.get m = if m.1 ∈ bad ∧ s.hcc.echoErrors.get m < 65535 then
        s.hcc.echoErrors.get m + 1 else s.hcc.echoErrors.get m) ∧
      t.hcc.threshold = s.hcc.threshold ∧
      t.hcc.budget = (if compared = false then s.hcc.budget else if bad = [] ∨ spent = true then s.hcc.threshold
        else s.hcc.budget - 1) ∧
      (∀ m : Fin 96, t.hcc.status.get m = if m.1 < s.hcc.census then
        (match echo[m.1]?.map (·.status) with
          | some .good => .good
          | some .supplyLow => .supplyLow
          | some .overheat => .overheat
          | _ => .driverFault) else s.hcc.status.get m) ∧
      (t.hcc.faultLevel = true ↔ ∃ m : Fin 96, m.1 < s.hcc.census ∧ t.hcc.status.get m ≠ .good) ∧
      t.grd.moduleLevel = t.hcc.faultLevel ∧
      (bad ≠ [] → .echoMismatch ∈ t.plk.notices) ∧
      (s.seq.state.guarded → spent = true → s.grd.isEnabled .echoBudget = true →
        (t.seq.state = .guard ∨ t.seq.state = .halted) ∧ .echoBudget ∈ t.grd.causes) ∧
      (s.seq.state.guarded → t.hcc.faultLevel = true → s.grd.isEnabled .moduleFault = true →
        (t.seq.state = .guard ∨ t.seq.state = .halted) ∧ .moduleFault ∈ t.grd.causes) ∧
      (spent = false → t.hcc.faultLevel = false →
        (∀ j, s.seq.present = some j → j.stage = .transferring →
          t.hcc.transfer = .taking n ∧ t.hcc.lastStrobe = some .take ∧
          t.seq = { s.seq with present := some { j with stage := .taking } }) ∧
        ((∀ j, s.seq.present = some j → j.stage ≠ .transferring) → t.hcc.transfer = .shifted n ∧ t.seq = s.seq) ∧
        t.hcc.latched = s.hcc.latched ∧ t.wft = s.wft ∧ t.chu = s.chu ∧ t.hmp = s.hmp ∧ t.fst = s.fst ∧
        (∀ p image, s.xpe.staging = .complete p image → ∃ e : Bool, t.xpe = { s.xpe with
            staging := .complete { p with echoMismatch := e } image } ∧
          (e = true ↔ p.echoMismatch = true ∨ (bad ≠ [] ∧ p.cursor.serial = n))))))

/-- R109, R110, R70, R126, R134, R136, R71: the completion of a TAKE: the staged pick becomes the latched-image record
and the buffer is EMPTY, with the claim and the releases; a held DROP-ALL follows; a PRESENT job ends, in PRESENTING in
READY, in FINDING in READY when nothing of FINDING is left; the find steps that waited are counted and taken one after another, and
so is a PRESENT order (log 16). What is still owed to a map write is that of log 40. A TAKE that RESET-SEQUENCER met leaves the record CLOSED and touches no hold (R110, R143, log 15).
With no TAKE in progress nothing completes (log 3). -/
def Obligations.TakeCompletionLatchesStaged : Prop :=
  ∀ s : State,
    (¬s.takes → exec .takeCompletion s = .next s) ∧
    (s.takes → s.hcc.holdsReleased = true → (∀ j, s.seq.present = some j → j.stage ≠ .taking) → s.seq.findWaiting = 0 →
      s.seq.presentWaiting = false →
      exec .takeCompletion s = .next { s with
        hcc := { s.hcc with
          transfer := .idle, latched := .closed, lastStrobe := some .drop, dropHeld := false, holdsReleased := false }
        xpe := ⟨none, .empty⟩ }) ∧
    (∀ c, s.takes → s.hcc.holdsReleased = true → (∀ j, s.seq.present = some j → j.stage ≠ .taking) →
      s.seq.findWaiting = 0 → s.seq.presentWaiting = true → s.seq.cursor = some c → s.seq.state ≠ .running →
      ∃ t : State, exec .takeCompletion s = .next t ∧
        t.seq = { s.seq with presentWaiting := false, present := some ⟨c, .expanding⟩ } ∧
        t.xpe.job = some ⟨.present, c, 128 * s.hcc.census⟩ ∧ t.hcc.latched = .closed ∧ t.hcc.transfer = .idle ∧
        t.hcc.holdsReleased = false) ∧
    (∀ (p : Plan) (image : List Bool), s.takes → s.hcc.holdsReleased = false → s.xpe.staging = .complete p image →
      -- a PRESENT order that waited
      (∀ c, s.seq.presentWaiting = true → s.seq.findWaiting = 0 → s.seq.cursor = some c → s.seq.state ≠ .running →
        (∀ j, s.seq.present = some j → j.stage ≠ .taking) → ∃ t : State, exec .takeCompletion s = .next t ∧
        t.seq = { s.seq with presentWaiting := false, present := some ⟨c, .expanding⟩, representOwed := s.seq.representOwed.taken } ∧
        t.xpe.job = some ⟨.present, c, 128 * s.hcc.census⟩ ∧
        t.hcc.latched = (if s.hcc.dropHeld then .closed else .pick p image) ∧ t.hcc.transfer = .idle) ∧
      -- find steps that waited
      (s.seq.state = .finding → s.seq.presentWaiting = false → 0 < s.seq.findWaiting →
        ((∃ j, s.seq.present = some j ∧ j.stage = .taking) → ∃ t : State, exec .takeCompletion s = .next t ∧
          .presentDone ∈ t.plk.notices) ∧
        (∀ (h es : List HistEntry) (e : HistEntry), s.seq.history = h ++ e :: es → es.length + 1 = s.seq.findWaiting →
          ∃ t : State, exec .takeCompletion s = .next t ∧ t.seq.state = .finding ∧ t.seq.findWaiting = 0 ∧
          t.seq.history = h ∧ t.seq.cursor = some e.cursor ∧ t.seq.serial = e.cursor.serial ∧
          t.seq.woven = s.seq.woven - BitVec.ofNat 32 s.seq.findWaiting ∧
          t.seq.present = some ⟨e.cursor, .expanding⟩ ∧ t.xpe.job = some ⟨.present, e.cursor, 128 * s.hcc.census⟩ ∧
          t.hcc.latched = (if s.hcc.dropHeld then .closed else .pick p image)) ∧
        (s.seq.history = [] → s.grd.isEnabled .historyEnd = true → ∃ t : State, exec .takeCompletion s = .next t ∧
          (t.seq.state = .guard ∨ t.seq.state = .halted) ∧ .historyEnd ∈ t.grd.causes ∧ t.seq.findWaiting = 0))) ∧
    (∀ (p : Plan) (image : List Bool), s.takes → s.hcc.holdsReleased = false → s.xpe.staging = .complete p image →
      s.seq.findWaiting = 0 → s.seq.presentWaiting = false → ∃ f g : Fst,
      f = (release .staged p.cursor.slot (releaseLatched s.hcc.latched (claim .latched p.cursor.slot s))).fst ∧
      g = (release .latched p.cursor.slot { s with fst := f }).fst ∧
      (s.hcc.dropHeld = false → (∀ j, s.seq.present = some j → j.stage ≠ .taking) →
        exec .takeCompletion s = .next { s with
          fst := f
          hcc := { s.hcc with transfer := .idle, latched := .pick p image }
          xpe := { s.xpe with staging := .empty }
          seq := { s.seq with representOwed := s.seq.representOwed.taken } }) ∧
      (s.hcc.dropHeld = true → (∀ j, s.seq.present = some j → j.stage ≠ .taking) →
        exec .takeCompletion s = .next { s with
          fst := g
          hcc := { s.hcc with transfer := .idle, latched := .closed, lastStrobe := some .drop, dropHeld := false }
          xpe := { s.xpe with staging := .empty }
          seq := { s.seq with representOwed := s.seq.representOwed.taken } }) ∧
      (∀ j, s.seq.present = some j → j.stage = .taking → s.hcc.dropHeld = false → s.seq.state = .presenting →
        exec .takeCompletion s = .next
          (raise .w .planChanged (raise .d .readyChanged (raise .p .presentDone { s with
            fst := f
            hcc := { s.hcc with transfer := .idle, latched := .pick p image }
            xpe := { s.xpe with staging := .empty }
            seq := { s.seq with present := none, state := .ready, representOwed := s.seq.representOwed.taken }
            wft := { s.wft with withheld := false } })))) ∧
      (∀ j, s.seq.present = some j → j.stage = .taking → s.hcc.dropHeld = false → s.seq.state ≠ .presenting →
        ∃ u : State, u = raise .p .presentDone { s with
            fst := f
            hcc := { s.hcc with transfer := .idle, latched := .pick p image }
            xpe := { s.xpe with staging := .empty }
            seq := { s.seq with present := none, representOwed := s.seq.representOwed.taken } } ∧
          (s.seq.state = .finding → s.seq.grant = .none → s.seq.runDown = false →
            exec .takeCompletion s = .next (raise .w .planChanged (raise .d .readyChanged
              { u with seq := { u.seq with state := .ready }, wft := { u.wft with withheld := false } }))) ∧
          (¬(s.seq.state = .finding ∧ s.seq.grant = .none ∧ s.seq.runDown = false) → exec .takeCompletion s = .next u)))

/-! ### The sequencer -/

/-- R125, R56: SELECT-DESIGN is checked in its order; accepted, the cursor takes the slot and the forward resolution of
the card with the counter's serial, and a PRESENT job expands it anew. -/
def Obligations.SelectDesignSetsCursor : Prop :=
  ∀ s : State, s.plk.isOpen = true →
    (∀ i c : Nat, 8 ≤ i → exec (.selectDesign i c) s = .next (s.responded .p .selectDesign .badArgument [])) ∧
    (∀ (i : Fin 8) (c : Nat), ¬s.openToSettings →
      exec (.selectDesign i.1 c) s = .next (s.responded .p .selectDesign .wrongState [])) ∧
    (∀ (i : Fin 8) (c : Nat), s.openToSettings → (s.slot i).state ≠ .valid →
      exec (.selectDesign i.1 c) s = .next (s.responded .p .selectDesign .checkFailed [])) ∧
    (∀ (i : Fin 8) (d : Design) (c : Nat), s.openToSettings → (s.slot i).state = .valid → s.design i = some d →
      d.height ≤ c → exec (.selectDesign i.1 c) s = .next (s.responded .p .selectDesign .badArgument [])) ∧
    (∀ (i : Fin 8) (d : Design) (c k : Nat), s.openToSettings → (s.slot i).state = .valid → s.design i = some d →
      c < d.height → k < d.height → (d.card ((c + k) % d.height)).void = false →
      (∀ j, j < k → (d.card ((c + j) % d.height)).void = true) → s.xpe = ⟨none, .empty⟩ → ¬s.takes →
      ∃ (t : State) (cur : Cursor), exec (.selectDesign i.1 c) s = .next t ∧
        cur = ⟨i, (c + k) % d.height, 0, 0, 0, s.seq.serial⟩ ∧ s.presentBegun t cur ∧ t.seq.serial = s.seq.serial ∧
        t.seq.history = s.seq.history ∧ t.chu = s.chu ∧ (s.seq.cursor = none ∨ 0 < (s.slot i).refs.cursor → 0 < (t.slot i).refs.cursor) ∧
        t.plk.response = some ⟨.ok, b16 ((c + k) % d.height) ++ b16 s.seq.serial.toNat⟩ ∧
        (s.seq.state = .ready → .readyChanged ∈ t.dlk.notices))

/-- R143, R37, R56, R96, R144, R159, R174: RESET-SEQUENCER in every state; no slot is held afterwards. While TAKING the
TAKE completes first and the DROP-ALL is held: the staged pick and the record stay, their holds do not (R110, log 15). -/
def Obligations.ResetSequencerEmptiesProgram : Prop :=
  ∀ s : State, s.plk.isOpen = true → ∃ t : State, exec .resetSequencer s = .next t ∧
    t.plk.response = some ⟨.ok, []⟩ ∧
    t.seq = ⟨.unloaded, .none, false, false, none,
      (match s.seq.cursor with | some c => c.serial + 1 | none => s.seq.serial), none, 0, false, [], s.seq.woven, .no⟩ ∧
    t.chu.queue = [] ∧ t.chu.nextId = s.chu.nextId ∧
    (∀ k, t.chu.comps.get k = { s.chu.comps.get k with hits := 0 }) ∧
    (∀ f, t.wft.feeders.get f = { s.wft.feeders.get f with failures := 0 }) ∧
    t.wft.window = none ∧ t.wft.capture = none ∧ t.wft.report = none ∧ t.wft.withheld = false ∧
    t.wft.verdict = s.wft.verdict ∧ t.wft.limit = s.wft.limit ∧ t.wft.extra = s.wft.extra ∧ t.wft.stray = s.wft.stray ∧
    t.grd = { s.grd with count := 0, run := 0, causes := [], stopRequest := false } ∧
    t.ang = { s.ang with stallWatch := .off, stallTimer := none } ∧
    (¬s.takes → t.xpe = ⟨none, .empty⟩ ∧ t.hcc.latched = .closed ∧ t.hcc.transfer = .idle ∧
      t.hcc.lastStrobe = some .drop) ∧
    (s.takes → t.hcc = { s.hcc with dropHeld := true, holdsReleased := true } ∧ t.xpe = s.xpe) ∧
    (s.holdsExact → ∀ i, (t.slot i).held = false) ∧
    (s.seq.state = .ready → .readyChanged ∈ t.dlk.notices) ∧
    t.wlb = s.wlb ∧ t.hmp = s.hmp ∧ t.fst.owner = s.fst.owner ∧ t.fst.free = s.fst.free ∧ t.draws = s.draws ∧
    t.hcc.census = s.hcc.census ∧ t.hcc.status = s.hcc.status ∧ t.hcc.budget = s.hcc.budget

/-- R58, R34: the plain advance, and when it wraps. -/
def Obligations.PlainAdvanceStepsCursor : Prop :=
  ∀ (s : State) (c : Cursor),
    (c.rep + 1 < (s.cardOf c).pickRepeat →
      s.advance c = ({ c with rep := c.rep + 1, phase := c.phase + 1, serial := c.serial + 1 }, false)) ∧
    ∀ (d : Design) (k : Nat), (s.cardOf c).pickRepeat ≤ c.rep + 1 → s.design c.slot = some d → c.card < d.height →
      k < d.height → (d.card ((c.card + 1 + k) % d.height)).void = false →
      (∀ j, j < k → (d.card ((c.card + 1 + j) % d.height)).void = true) →
      s.advance c = ({ c with
        card := (c.card + 1 + k) % d.height
        rep := 0
        pass := if d.height ≤ c.card + 1 + k then c.pass + 1 else c.pass
        phase := c.phase + 1
        serial := c.serial + 1 }, decide (d.height ≤ c.card + 1 + k))

/-- R128 with R88, R93, R130, R151 to R154, R168: A_close on an open window with an arrival and no failure report commits
the pending pick: the verdict record, the history entry, the woven count, the comparators, the head of the change queue,
the cursor, the run counter and the guard count. (A run counter above 0 under auto-clear run 0 stays: log 38.) -/
def Obligations.CloseCommitsPendingPick : Prop :=
  ∀ (s : State) (p : Plan) (n : Half) (angle : Nat), s.stepsOnto .closing →
    s.seq.state = .running ∨ s.seq.state = .stopping → s.wft.window = some n → s.wft.capture = some angle →
    (∀ x, s.wft.report = some ⟨n, x⟩ → x = .inserted) → s.pendingPlan = some p →
    ∃ (t : State) (stops : Bool), exec (.encoderStep .forward s.ang.indexLevel) s = .next t ∧
      s.pickCommitted t p n angle stops ∧ (stops = false → t.seq.state = s.seq.state) ∧
      (stops = true → s.grd.isEnabled .markStop = true → t.seq.state = .guard ∨ t.seq.state = .halted)

/-- R134, R135, R155 to R157, R127: a reverse index crossing in FINDING under FIND unwinds the newest entry and orders a
PRESENT job for it, planned with the alternation state its entry recorded; on an empty history HISTORY-END is raised. -/
def Obligations.FindStepUnwindsNewestEntry : Prop :=
  ∀ (s : State) (c : Cursor), s.seq.state = .finding → s.seq.grant = .find → ¬s.takes → s.ang.rest = .moving →
    s.ang.indexLevel = true → (s.ang.index = .indexed → -2 ≤ s.ang.count ∧ s.ang.count ≤ 2) → s.seq.cursor = some c →
    (s.seq.history = [] → s.grd.isEnabled .historyEnd = true → ∃ t : State,
      exec (.encoderStep .reverse false) s = .next t ∧ (t.seq.state = .guard ∨ t.seq.state = .halted) ∧
      .historyEnd ∈ t.grd.causes ∧ t.seq.cursor = some c ∧ t.seq.history = [] ∧ t.chu = s.chu) ∧
    (∀ (h : List HistEntry) (e : HistEntry), s.seq.history = h ++ [e] → e.cursor ≠ c → ∃ t : State,
      exec (.encoderStep .reverse false) s = .next t ∧ t.seq.state = .finding ∧ t.seq.cursor = some e.cursor ∧
      t.seq.serial = e.cursor.serial ∧ t.seq.history = h ∧ t.seq.woven = s.seq.woven - 1 ∧
      t.seq.present = some ⟨e.cursor, .expanding⟩ ∧ t.xpe.job = some ⟨.present, e.cursor, 128 * s.hcc.census⟩ ∧
      t.hcc.latched = s.hcc.latched ∧ t.wft.feeders = s.wft.feeders ∧
      (∀ k, t.chu.comps.get k = { s.chu.comps.get k with
        hits := if k ∈ e.hits then (s.chu.comps.get k).hits - 1 else (s.chu.comps.get k).hits }) ∧
      (e.applied = none → e.counted = none → t.chu.queue = s.chu.queue) ∧
      (∀ a, e.applied = some a → e.counted = none → .changeRestored ∈ t.plk.notices ∧
        ∃ c : Change, c = ⟨a.id, a.slot, a.card, a.condition, (match a.condition with | .atCount _ => some 0 | _ => none),
          a.phaseReset⟩ ∧
        t.chu.queue = c :: (if s.chu.queue.length < 4 then s.chu.queue else s.chu.queue.dropLast)) ∧
      (∀ a i, e.applied = some a → e.counted = some i → ∃ c : Change, c = ⟨a.id, a.slot, a.card, a.condition,
          (match a.condition with | .atCount m => some (if a.id = i ∧ 0 < m then 1 else 0) | _ => none), a.phaseReset⟩ ∧
        t.chu.queue = c :: (if s.chu.queue.length < 4 then s.chu.queue else s.chu.queue.dropLast)) ∧
      (s.seq.present = none → s.xpe = ⟨none, .empty⟩ → ∃ w : Wft,
        w = (match e.group with
          | none => s.wft
          | some g => { s.wft with
              groups := upd s.wft.groups g.group { s.wft.groups.get g.group with alternation := g.before } }) ∧
        t.wft = (w.choose (s.cardOf e.cursor).weft).wft) ∧
      (∀ a q x, e.applied = some a → s.chu.queue = q ++ [x] → 3 ≤ q.length →
        .changeDropped ∈ t.plk.notices ∧ t.plk.droppedId = some x.id) ∧
      (∀ i x q m r, e.applied = none → e.counted = some i → s.chu.queue = x :: q → x.condition = .atCount m →
        x.remaining = some r → t.chu.queue =
          if x.id = i then { x with remaining := some (if r < m then r + 1 else r) } :: q else s.chu.queue))

/-- R3, R8, R9, R66, R67, R86, R88, R93, R108: a forward step onto an armed schedule angle takes the angle out of the
armed set and raises its event at its block, which acts by the sequencer state: A_latch, A_open, A_prep, A_xfer, and
A_close where it brings a FAIL or MISSING verdict or finds no window (its COMMIT: CloseCommitsPendingPick). Several armed
angles on one count, as A_prep at A_close, and those an early mark carries the shaft past, are raised in schedule order,
before the count is set to 0. A_prep in RUNNING whose plan comes out NONE starts its job and hands FEEDER-UNAVAILABLE to GRD
(R81). (The free order of other events of a step: log 8. A transfer or job that meets a TAKE: log 18.
FEEDER-UNAVAILABLE once for an event: log 14.) -/
def Obligations.ScheduleAnglesRaiseEvents : Prop :=
  ∀ s : State,
    (∀ encz, s.ang.index = .indexed → s.ang.rest = .moving → s.ang.count ≤ 720 → ¬s.crossesForward .forward encz →
      exec (.encoderStep .forward encz) s = .next
        ((SchedAngle.all.filter fun a => decide (s.stepFires .forward encz a)).foldl
          (fun u a => scheduleEvent a (u.disarmed a)) (s.stepped (s.ang.count + 1) encz))) ∧
    (s.ang.index = .indexed → s.ang.rest = .moving → 717 ≤ s.ang.count → s.ang.count ≤ 721 →
      s.crossesForward .forward true → ¬(s.seq.state = .finding ∧ s.seq.grant = .find) → ∃ u : State,
      u = (SchedAngle.all.filter fun a => decide (s.stepFires .forward true a)).foldl
          (fun u a => scheduleEvent a (u.disarmed a)) (s.stepped s.ang.count true) ∧
      exec (.encoderStep .forward true) s = .next
        { u with ang := { u.ang with count := 0, index := .indexed, armed := SchedAngle.all } }) ∧
    (s.stepsOnto .closing →
      (∀ n v x, s.seq.state = .running ∨ s.seq.state = .stopping → s.wft.window = some n →
        (v = .fail ∧ x = Trigger.weftFail ∧ (∃ o, s.wft.report = some ⟨n, o⟩ ∧ o ≠ .inserted) ∨
          v = .missing ∧ x = .weftMissing ∧ (∀ o, s.wft.report = some ⟨n, o⟩ → o = .inserted) ∧ s.wft.capture = none) →
        ∃ (t u : State) (o : Option Insertion), exec (.encoderStep .forward s.ang.indexLevel) s = .next t ∧
          (∀ y, o = some y ↔ s.wft.report = some ⟨n, y⟩) ∧
          u = trigger x { s.steppedOnto .closing with wft := { s.wft with
            window := none, report := none, verdict := some ⟨n, v, s.pendingFeeder, s.wft.capture, o⟩ } } ∧
          u.failureAccounted s.pendingFeeder t) ∧
      (s.wft.window = none ∨ ¬(s.seq.state = .running ∨ s.seq.state = .stopping) →
        exec (.encoderStep .forward s.ang.indexLevel) s = .next (s.steppedOnto .closing))) ∧
    (s.stepsOnto .latch →
      (∀ p image, s.seq.state = .running → s.xpe.staging = .complete p image → s.seq.cursor = some p.cursor →
        s.hcc.transfer = .shifted p.cursor.serial →
        exec (.encoderStep .forward s.ang.indexLevel) s = .next { s.steppedOnto .latch with
          hcc := { s.hcc with transfer := .taking p.cursor.serial, lastStrobe := some .take } }) ∧
      (s.seq.state = .running → (∀ p image, s.xpe.staging = .complete p image → s.seq.cursor = some p.cursor →
          s.hcc.transfer ≠ .shifted p.cursor.serial) →
        exec (.encoderStep .forward s.ang.indexLevel) s = .next (trigger .lateTransfer (s.steppedOnto .latch))) ∧
      (s.seq.state ≠ .running → exec (.encoderStep .forward s.ang.indexLevel) s = .next (s.steppedOnto .latch))) ∧
    (s.stepsOnto .opening →
      ((s.seq.state = .running ∨ s.seq.state = .stopping) →
        (s.takes → exec (.encoderStep .forward s.ang.indexLevel) s = .next
          (trigger .lateTransfer { s.steppedOnto .opening with wft := { s.wft with window := none } })) ∧
        (∀ p, ¬s.takes → s.pendingPlan = some p →
          exec (.encoderStep .forward s.ang.indexLevel) s = .next { s.steppedOnto .opening with
            wft := { s.wft with window := some p.cursor.serial, capture := none, report := none } }) ∧
        (¬s.takes → s.pendingPlan = none →
          exec (.encoderStep .forward s.ang.indexLevel) s = .next
            { s.steppedOnto .opening with wft := { s.wft with window := none } })) ∧
      (¬(s.seq.state = .running ∨ s.seq.state = .stopping) →
        exec (.encoderStep .forward s.ang.indexLevel) s = .next
          { s.steppedOnto .opening with wft := { s.wft with window := none } })) ∧
    (s.stepsOnto .prep →
      (∀ c p, s.seq.state = .running → ¬s.takes → s.seq.cursor = some c → s.xpe = ⟨none, .empty⟩ →
        p = s.wft.choose (s.cardOf c).weft → p.feeder ≠ none →
        exec (.encoderStep .forward s.ang.indexLevel) s = .next { s.steppedOnto .prep with
          wft := p.wft
          fst := (claim .staged c.slot s).fst
          xpe := ⟨some ⟨.schedule, c, 128 * s.hcc.census⟩,
            .filling ⟨c, p.feeder, p.group, (s.cardOf c).mark, false, false⟩⟩ }) ∧
      (∀ c p, s.seq.state = .running → ¬s.takes → s.seq.cursor = some c → s.xpe = ⟨none, .empty⟩ →
        p = s.wft.choose (s.cardOf c).weft → p.feeder = none →
        exec (.encoderStep .forward s.ang.indexLevel) s = .next (trigger .feederUnavailable { s.steppedOnto .prep with
          wft := p.wft
          fst := (claim .staged c.slot s).fst
          xpe := ⟨some ⟨.schedule, c, 128 * s.hcc.census⟩,
            .filling ⟨c, none, p.group, (s.cardOf c).mark, false, false⟩⟩ })) ∧
      (s.seq.state ≠ .running ∨ s.stagedBelongs = true ∨ (∃ j, s.xpe.job = some j ∧ s.seq.cursor = some j.snapshot) →
        exec (.encoderStep .forward s.ang.indexLevel) s = .next (s.steppedOnto .prep))) ∧
    (s.stepsOnto .xfer →
      (∀ p image, s.seq.state = .running → s.xpe.staging = .complete p image → s.seq.cursor = some p.cursor →
        s.hcc.census ≠ 0 → ¬s.takes → s.hcc.transfer ≠ .refreshing →
        exec (.encoderStep .forward s.ang.indexLevel) s = .next { s.steppedOnto .xfer with
          hcc := { s.hcc with transfer := .shifting p.cursor.serial } }) ∧
      (s.seq.state = .running → (∀ p image, s.xpe.staging = .complete p image → s.seq.cursor ≠ some p.cursor) →
        exec (.encoderStep .forward s.ang.indexLevel) s = .next (trigger .latePick (s.steppedOnto .xfer))) ∧
      (s.seq.state ≠ .running → exec (.encoderStep .forward s.ang.indexLevel) s = .next (s.steppedOnto .xfer)))

/-! ### Timers, lines and rest -/

/-- R87, R1, R6, R13, R163, R170: arrival edges, the encoder error, the stall timer, the warp stop line and its filter,
with the guard exit when the line falls (what follows an exit to READY for a map write: log 40; an order that waits for a
TAKE: log 16); an expiry of a stopped timer is none (log 3), an equal level
is no change (log 35). -/
def Obligations.EdgesAndTimersAct : Prop :=
  ∀ s : State,
    (∀ n, s.wft.window = some n → s.wft.capture = none →
      exec .arrivalEdge s = .next { s with wft := { s.wft with capture := some s.ang.angle } }) ∧
    (∀ n a, s.wft.window = some n → s.wft.capture = some a → exec .arrivalEdge s = .next { s with wft :=
      { s.wft with extra := if s.wft.extra < 65535 then s.wft.extra + 1 else s.wft.extra } }) ∧
    (s.wft.window = none → exec .arrivalEdge s = .next { s with wft :=
      { s.wft with stray := if s.wft.stray < 65535 then s.wft.stray + 1 else s.wft.stray } }) ∧
    (∀ encz, exec (.encoderError encz) s = .next (trigger .angleFault { s with ang := { s.ang with
      indexLevel := encz
      index := .unindexed
      faultTotal := if s.ang.faultTotal < 65535 then s.ang.faultTotal + 1 else s.ang.faultTotal } })) ∧
    (s.ang.stallTimer ≠ none → exec .stallTimerExpiry s = .next
      (trigger .driveStall { s with ang := { s.ang with stallWatch := .expired, stallTimer := none } })) ∧
    (s.ang.stallTimer = none → exec .stallTimerExpiry s = .next s) ∧
    (∀ level, level ≠ s.grd.rawWarp → exec (.wstopChange level) s = .next
      { s with grd := { s.grd with rawWarp := level, filterTimer := some s.grd.filterTime } }) ∧
    exec (.wstopChange s.grd.rawWarp) s = .next s ∧
    (s.grd.filterTimer = none → exec .filterTimerExpiry s = .next s) ∧
    (s.grd.filterTimer ≠ none →
      (s.grd.warp = s.grd.rawWarp →
        exec .filterTimerExpiry s = .next { s with grd := { s.grd with filterTimer := none } }) ∧
      (s.grd.warp = false → s.grd.rawWarp = true → exec .filterTimerExpiry s = .next
        (trigger .warpStop { s with grd := { s.grd with filterTimer := none, warp := true } })) ∧
      (s.grd.warp = true → s.grd.rawWarp = false → ∃ u : State,
        u = { s with grd := { s.grd with filterTimer := none, warp := false } } ∧
        (¬(s.seq.state = .guard ∧ s.ang.rest = .atRest ∧ s.seq.coasting = false ∧ u.grd.levelCause = false) →
          exec .filterTimerExpiry s = .next u) ∧
        (s.seq.state = .guard → s.ang.rest = .atRest → s.seq.coasting = false → u.grd.levelCause = false →
          ∃ t : State, exec .filterTimerExpiry s = .next t ∧ s.guardLeft s.grd.run s.grd.count t)))

/-- R10, R124, R132, R136, R170, R89, R69: what the settle timer's expiry declares, and what each sequencer state makes
of the rest: STOPPING by `restTaken`, the verdict on an open window and the PRESENT job among it (the verdict clears the
report record: log 37; a run counter above 0 under auto-clear run 0 stays: log 38; FEEDER-UNAVAILABLE once for an event:
log 14), GUARD by the exit check (what follows an exit to READY for a map write: log 40; an order that waits for a TAKE:
log 16). An expiry of a stopped timer is none (log 3). -/
def Obligations.SettleExpiryDeclaresRest : Prop :=
  ∀ s : State,
    (s.ang.settleTimer = none → exec .settleTimerExpiry s = .next s) ∧
    (s.ang.settleTimer ≠ none → ∃ u : State,
      u = { s with
        ang := { s.ang with rest := .atRest, restAngle := s.ang.angle, reverseTravel := 0, settleTimer := none }
        seq := { s.seq with runDown := false } } ∧
      (s.seq.state = .unloaded ∨ s.seq.state = .presenting ∨ s.seq.state = .ready ∨ s.seq.state = .running →
        exec .settleTimerExpiry s = .next u) ∧
      (s.seq.state = .halted →
        exec .settleTimerExpiry s = .next
          { u with seq := { u.seq with coasting := s.seq.coasting && !s.seq.runDown } }) ∧
      (s.seq.state = .guard → (s.seq.coasting && !s.seq.runDown) = true ∨ s.grd.levelCause = true →
        exec .settleTimerExpiry s = .next
          { u with seq := { u.seq with coasting := s.seq.coasting && !s.seq.runDown } }) ∧
      (s.seq.state = .guard → (s.seq.coasting && !s.seq.runDown) = false → s.grd.levelCause = false →
        ∃ t : State, exec .settleTimerExpiry s = .next t ∧ s.guardLeft s.grd.run s.grd.count t) ∧
      (s.seq.state = .finding → s.seq.grant = .none → s.seq.present = none → s.seq.findWaiting = 0 →
        exec .settleTimerExpiry s = .next (raise .w .planChanged (raise .d .readyChanged
          { u with seq := { u.seq with state := .ready }, wft := { u.wft with withheld := false } }))) ∧
      (s.seq.state = .finding → ¬(s.seq.grant = .none ∧ s.seq.present = none ∧ s.seq.findWaiting = 0) →
        exec .settleTimerExpiry s = .next u) ∧
      (s.seq.state = .stopping → ∃ t : State, exec .settleTimerExpiry s = .next t ∧ u.restTaken t))

/-! ### The change unit -/

/-- R147, R146, R149, R150: QUEUE-CHANGE, CANCEL-CHANGES and SET-MARK: the checks in their order and the effects. -/
def Obligations.ChangeUnitRequests : Prop :=
  ∀ s : State, s.plk.isOpen = true →
    (∀ (i card : Nat) (k : Condition) (r : Bool), 8 ≤ i →
      exec (.queueChange i card k r) s = .next (s.responded .p .queueChange .badArgument [])) ∧
    (∀ (i : Fin 8) (card : Nat) (k : Condition) (r : Bool),
      ((∃ m, k = .atMark m ∧ 3 < m) ∨ ∃ n, k = .atCount n ∧ (n = 0 ∨ 65535 < n)) →
      exec (.queueChange i.1 card k r) s = .next (s.responded .p .queueChange .badArgument [])) ∧
    (∀ (i : Fin 8) (card : Nat) (k : Condition) (r : Bool), (∀ m, k = .atMark m → m ≤ 3) →
      (∀ n, k = .atCount n → 1 ≤ n ∧ n ≤ 65535) →
      (s.seq.state = .unloaded ∨ s.seq.state = .halted →
        exec (.queueChange i.1 card k r) s = .next (s.responded .p .queueChange .wrongState [])) ∧
      (s.seq.state ≠ .unloaded → s.seq.state ≠ .halted →
        ((s.slot i).state ≠ .valid →
          exec (.queueChange i.1 card k r) s = .next (s.responded .p .queueChange .checkFailed [])) ∧
        (∀ d, (s.slot i).state = .valid → s.design i = some d →
          (d.height ≤ card →
            exec (.queueChange i.1 card k r) s = .next (s.responded .p .queueChange .badArgument [])) ∧
          (card < d.height → 4 ≤ s.chu.queue.length →
            exec (.queueChange i.1 card k r) s = .next (s.responded .p .queueChange .noSpace [])) ∧
          (card < d.height → s.chu.queue.length < 4 → ∃ c : Change,
            c = ⟨s.chu.nextId, i, card, k, (match k with | .atCount n => some n | _ => none), r⟩ ∧
            exec (.queueChange i.1 card k r) s = .next
              (({ s with
                fst := s.fst.modSlot i fun x => { x with refs := { x.refs with queue := x.refs.queue + 1 } }
                chu := { s.chu with queue := s.chu.queue ++ [c], nextId := s.chu.nextId + 1 } }).responded .p .queueChange .ok
                (b16 s.chu.nextId.toNat ++ b8 (s.chu.queue.length + 1))))))) ∧
    (∃ f : Fst, exec .cancelChanges s = .next
        (({ s with fst := f, chu := { s.chu with queue := [] } }).responded .p .cancelChanges .ok
          (b8 s.chu.queue.length)) ∧
      f.owner = s.fst.owner ∧ f.free = s.fst.free ∧
      ∀ i, f.slots.get i = { s.slot i with refs := { (s.slot i).refs with
        queue := (s.slot i).refs.queue - (s.chu.queue.filter fun c => decide (c.slot = i)).length } }) ∧
    (∀ (k : Nat) (m : CompMode) (v w : BitVec 8) (a b : Bool),
      (4 ≤ k → exec (.setMark k m v w a b) s = .next (s.responded .p .setMark .badArgument [])) ∧
      (k < 4 → ¬s.openToSettings → exec (.setMark k m v w a b) s = .next (s.responded .p .setMark .wrongState [])) ∧
      (k < 4 → s.openToSettings → m ≠ .off → w = 0 →
        exec (.setMark k m v w a b) s = .next (s.responded .p .setMark .badArgument []))) ∧
    (∀ (k : Fin 4) (m : CompMode) (v w : BitVec 8) (a b : Bool), s.openToSettings → (m = .off ∨ w ≠ 0) →
      exec (.setMark k.1 m v w a b) s = .next
        (({ s with chu := { s.chu with comps := upd s.chu.comps k ⟨m, v, w, a, b, 0⟩ } }).responded .p .setMark .ok []))

/-! ### The guard unit -/

/-- R160, R161, R164 to R167, R139: what becomes of a trigger by the state it is taken in. (A guard entry drops a waiting
PRESENT order with the find steps that wait: log 16.) -/
def Obligations.TriggersTakenByState : Prop :=
  ∀ (x : Trigger) (s : State),
    (∀ y : Trigger, (trigger x s).grd.totals.get y.idx =
      if y = x ∧ s.grd.totals.get y.idx < 65535 then s.grd.totals.get y.idx + 1 else s.grd.totals.get y.idx) ∧
    (s.seq.state = .unloaded →
      trigger x s = { s with grd := { s.grd with totals := (trigger x s).grd.totals } }) ∧
    (s.seq.state ≠ .unloaded → s.grd.isEnabled x = false →
      trigger x s = raise .p .triggerIgnored
        (({ s with grd := { s.grd with totals := (trigger x s).grd.totals } } : State).modLink .p fun k =>
          { k with ignored := some x })) ∧
    (s.seq.state = .guard ∨ s.seq.state = .halted → s.grd.isEnabled x = true → ∃ causes : List Trigger,
      trigger x s = { s with grd := { s.grd with totals := (trigger x s).grd.totals, causes := causes } } ∧
      ∀ y, y ∈ causes ↔ y = x ∨ y ∈ s.grd.causes) ∧
    (s.seq.state.guarded → s.grd.isEnabled x = true → s.guardEntered x (trigger x s))

/-- R172, R162: SET-GUARD is checked; accepted, every setting is replaced and the count clamped; a newly enabled level
trigger whose level is active is raised, a newly disabled one brings the exit check (what follows an exit to READY for a
map write, by R52: log 40; an order that waits for a TAKE: log 16). -/
def Obligations.SetGuardReplacesSettings : Prop :=
  ∀ (s : State) (g : GuardSetting), s.plk.isOpen = true →
    (¬(g.limit ≤ 15 ∧ 1 ≤ g.filterTime ∧ g.filterTime ≤ 255 ∧
        ∀ x : Trigger, x.mayDisable = false → g.enabled.get x.idx = true) →
      exec (.setGuard g) s = .next (s.responded .p .setGuard .badArgument [])) ∧
    (g.limit ≤ 15 → 1 ≤ g.filterTime → g.filterTime ≤ 255 →
      (∀ x : Trigger, x.mayDisable = false → g.enabled.get x.idx = true) →
      (s.grd.warp = false → s.grd.moduleLevel = false → s.seq.state ≠ .guard →
        exec (.setGuard g) s = .next
          (({ s with grd := { s.grd with
              enabled := g.enabled, counts := g.counts, shed := g.shed, limit := g.limit, autoClear := g.autoClear,
              filterTime := g.filterTime,
              count := if 0 < g.limit ∧ g.limit < s.grd.count then g.limit else s.grd.count } }).responded
            .p .setGuard .ok [])) ∧
      ∃ t : State, exec (.setGuard g) s = .next t ∧ t.plk.response = some ⟨.ok, []⟩ ∧ t.grd.enabled = g.enabled ∧
        t.grd.counts = g.counts ∧ t.grd.shed = g.shed ∧ t.grd.limit = g.limit ∧ t.grd.autoClear = g.autoClear ∧
        t.grd.filterTime = g.filterTime ∧ (0 < g.limit → t.grd.count ≤ g.limit) ∧
        (∀ x : Trigger, (x = .warpStop ∧ s.grd.warp = true ∨ x = .moduleFault ∧ s.grd.moduleLevel = true) →
          s.grd.isEnabled x = false → g.enabled.get x.idx = true → s.seq.state.guarded →
          (t.seq.state = .guard ∨ t.seq.state = .halted) ∧ x ∈ t.grd.causes) ∧
        (s.seq.state = .guard → s.ang.rest = .atRest → s.seq.coasting = false →
          (∃ x : Trigger, (x = .warpStop ∨ x = .moduleFault) ∧ s.grd.isEnabled x = true ∧ g.enabled.get x.idx = false) →
          (s.grd.warp = true → g.enabled.get Trigger.warpStop.idx = false) →
          (s.grd.moduleLevel = true → g.enabled.get Trigger.moduleFault.idx = false) →
          s.guardLeft s.grd.run (if 0 < g.limit ∧ g.limit < s.grd.count then g.limit else s.grd.count) t))

/-- R171, R140, R52: CLEAR-HALT leaves HALTED at rest, without coasting and without an active level cause, with both
counters 0, to READY or PRESENTING as a guard exit does, and returns the state that the exit takes; a presentation owed to a map
write follows an exit to READY (log 40; an order that waits for a TAKE: log 16). Otherwise it is refused. -/
def Obligations.ClearHaltLeavesHalted : Prop :=
  ∀ s : State, s.plk.isOpen = true →
    (¬(s.seq.state = .halted ∧ s.ang.rest = .atRest ∧ s.seq.coasting = false ∧ s.grd.levelCause = false) →
      exec .clearHalt s = .next (s.responded .p .clearHalt .wrongState [])) ∧
    (s.seq.state = .halted → s.ang.rest = .atRest → s.seq.coasting = false → s.grd.levelCause = false →
      ∃ t : State, exec .clearHalt s = .next t ∧ s.guardLeft 0 0 t ∧
        t.plk.response = some ⟨.ok, [BitVec.ofNat 8 (stateCode (if s.exitsToReady then .ready else .presenting))]⟩)

/-- R169: CLEAR-GUARD-COUNT in every state; with a counting trigger in either order. -/
def Obligations.ClearGuardCountZeroesCount : Prop :=
  ∀ s : State, s.plk.isOpen = true →
    exec .clearGuardCount s = .next
      (({ s with grd := { s.grd with count := 0 } }).responded .p .clearGuardCount .ok [BitVec.ofNat 8 s.grd.count]) ∧
    ∀ x : Trigger, s.seq.state.guarded → s.grd.isEnabled x = true → s.grd.counts.get x.idx = true →
      (∃ t : State, exec .clearGuardCount s = .next t ∧ (trigger x t).seq.state = .guard ∧ (trigger x t).grd.count = 1) ∧
      ∃ u : State, exec .clearGuardCount (trigger x s) = .next u ∧ u.grd.count = 0 ∧
        u.seq.state = (trigger x s).seq.state ∧
        (0 < s.grd.limit → s.grd.limit ≤ s.grd.count → u.seq.state = .halted) ∧
        (s.grd.limit = 0 ∨ s.grd.count < s.grd.limit → u.seq.state = .guard)

/-! ### The receivers -/

/-- R175, R176, R178, R180, R190, R191: what comes of a whole frame, whichever of the four rows carries its characters
(log 12): dropped and counted while a request is outstanding, refused by the link, or run as the request it carries. A
character error after the start character, or a payload length above 4096, which ends the frame at once, is a
FRAME-ERROR. -/
def Obligations.ReceiverChecksFrames : Prop :=
  ∀ (s : State) (l : LinkId) (code : Byte) (payload : List Byte) (check : BitVec 16) (cs : List LineChar) (c : Instr),
    payload.length ≤ 4096 → cs = frameChars code payload check → (s.link l).rx = .hunting →
    (c = .frameError l cs ∨ c = .unknownRequest l cs ∨ c = .overlappingFrame l cs ∨ c = .encodingFault l cs) →
    ((s.link l).outstanding ≠ none →
      exec c s = .next (s.modLink l fun k =>
        { k with errors := (if k.errors < 65535 then k.errors + 1 else k.errors), frame := none })) ∧
    ((s.link l).isOpen = true →
      (check ≠ frameCheck code payload →
        exec c s = .next ((s.modLink l fun k =>
          { k with errors := if k.errors < 65535 then k.errors + 1 else k.errors }).refusedFrame l code .frameError)) ∧
      (check = frameCheck code payload →
        ((∀ r : Request, ¬(r.code = code ∧ r.onLink l = true)) →
          exec c s = .next (s.refusedFrame l code .unknownRequest)) ∧
        (∀ r : Request, r.code = code → r.onLink l = true →
          (decodeRequest l r payload = .frameError →
            exec c s = .next ((s.modLink l fun k =>
              { k with errors := if k.errors < 65535 then k.errors + 1 else k.errors }).refusedFrame
                l code .frameError)) ∧
          (decodeRequest l r payload = .badArgument → exec c s = .next (s.refusedFrame l code .badArgument)) ∧
          (∀ i, decodeRequest l r payload = .request i → exec c s = exec i s)))) ∧
    (∀ (chars : List LineChar) (i : Instr), chars.map (·.byte) = (cs.drop 1).map (·.byte) → (∃ x ∈ chars, x.err = true) →
      (i = .frameError l (⟨0xA5, false⟩ :: chars) ∨ i = .unknownRequest l (⟨0xA5, false⟩ :: chars) ∨
        i = .overlappingFrame l (⟨0xA5, false⟩ :: chars) ∨ i = .encodingFault l (⟨0xA5, false⟩ :: chars)) →
      (s.link l).isOpen = true →
      exec i s = .next ((s.modLink l fun k =>
        { k with errors := if k.errors < 65535 then k.errors + 1 else k.errors }).refusedFrame l code .frameError)) ∧
    (∀ (n : Nat) (chars : List LineChar) (i : Instr), 4096 < n → n < 65536 →
      chars = (0xA5 :: code :: b16 n).map (fun b => ⟨b, false⟩) →
      (i = .frameError l chars ∨ i = .unknownRequest l chars ∨ i = .overlappingFrame l chars ∨ i = .encodingFault l chars) →
      ((s.link l).outstanding ≠ none →
        exec i s = .next (s.modLink l fun k =>
          { k with errors := (if k.errors < 65535 then k.errors + 1 else k.errors), frame := none })) ∧
      ((s.link l).isOpen = true →
        exec i s = .next ((s.modLink l fun k =>
          { k with errors := if k.errors < 65535 then k.errors + 1 else k.errors }).refusedFrame l code .frameError)))

/-- R179, R177: a break clears the receiver; a request AT-OWNER loses its response, a response being sent is cut off. The
end of a response ends the request (with nothing being sent, nothing ends: log 3). -/
def Obligations.BreakAndResponseEnd : Prop :=
  ∀ (s : State) (l : LinkId),
    ((s.link l).outstanding = none →
      exec (.lineBreak l) s = .next (s.modLink l fun k => { k with rx := .hunting, frame := none }) ∧
      exec (.responseSent l) s = .next s) ∧
    (∀ code, (s.link l).outstanding = some ⟨code, .atOwner⟩ →
      exec (.lineBreak l) s = .next (s.modLink l fun k => { k with rx := .hunting, frame := none, suppressed := true }) ∧
      exec (.responseSent l) s = .next s) ∧
    (∀ code, (s.link l).outstanding = some ⟨code, .sending⟩ →
      exec (.lineBreak l) s = .next (s.modLink l fun k =>
        { k with rx := .hunting, frame := none, outstanding := none, response := none }) ∧
      exec (.responseSent l) s = .next (s.modLink l fun k => { k with outstanding := none, response := none }))
end

