-- ==== Sys2Proof/Laws/State.lean ====
section
/-! SUPPORT. One lemma for each field that a small update leaves, so that no proof unfolds a record update: modLink, raise,
answer, claim, release, countTrigger, and what a link reads after its own update. -/

namespace Sys2Proof.Machine

/-! ### An update of a link -/

@[simp] theorem modLink_ang (s : State) (l : LinkId) (f : Link → Link) : (s.modLink l f).ang = s.ang := by cases l <;> rfl
@[simp] theorem modLink_fst (s : State) (l : LinkId) (f : Link → Link) : (s.modLink l f).fst = s.fst := by cases l <;> rfl
@[simp] theorem modLink_wlb (s : State) (l : LinkId) (f : Link → Link) : (s.modLink l f).wlb = s.wlb := by cases l <;> rfl
@[simp] theorem modLink_hmp (s : State) (l : LinkId) (f : Link → Link) : (s.modLink l f).hmp = s.hmp := by cases l <;> rfl
@[simp] theorem modLink_xpe (s : State) (l : LinkId) (f : Link → Link) : (s.modLink l f).xpe = s.xpe := by cases l <;> rfl
@[simp] theorem modLink_seq (s : State) (l : LinkId) (f : Link → Link) : (s.modLink l f).seq = s.seq := by cases l <;> rfl
@[simp] theorem modLink_chu (s : State) (l : LinkId) (f : Link → Link) : (s.modLink l f).chu = s.chu := by cases l <;> rfl
@[simp] theorem modLink_wft (s : State) (l : LinkId) (f : Link → Link) : (s.modLink l f).wft = s.wft := by cases l <;> rfl
@[simp] theorem modLink_hcc (s : State) (l : LinkId) (f : Link → Link) : (s.modLink l f).hcc = s.hcc := by cases l <;> rfl
@[simp] theorem modLink_grd (s : State) (l : LinkId) (f : Link → Link) : (s.modLink l f).grd = s.grd := by cases l <;> rfl
@[simp] theorem modLink_draws (s : State) (l : LinkId) (f : Link → Link) : (s.modLink l f).draws = s.draws := by cases l <;> rfl
@[simp] theorem modLink_pending (s : State) (l : LinkId) (f : Link → Link) : (s.modLink l f).pending = s.pending := by cases l <;> rfl

/-! ### A notice -/

@[simp] theorem raise_ang (l : LinkId) (n : NoticeKind) (s : State) : (raise l n s).ang = s.ang := by cases l <;> rfl
@[simp] theorem raise_fst (l : LinkId) (n : NoticeKind) (s : State) : (raise l n s).fst = s.fst := by cases l <;> rfl
@[simp] theorem raise_wlb (l : LinkId) (n : NoticeKind) (s : State) : (raise l n s).wlb = s.wlb := by cases l <;> rfl
@[simp] theorem raise_hmp (l : LinkId) (n : NoticeKind) (s : State) : (raise l n s).hmp = s.hmp := by cases l <;> rfl
@[simp] theorem raise_xpe (l : LinkId) (n : NoticeKind) (s : State) : (raise l n s).xpe = s.xpe := by cases l <;> rfl
@[simp] theorem raise_seq (l : LinkId) (n : NoticeKind) (s : State) : (raise l n s).seq = s.seq := by cases l <;> rfl
@[simp] theorem raise_chu (l : LinkId) (n : NoticeKind) (s : State) : (raise l n s).chu = s.chu := by cases l <;> rfl
@[simp] theorem raise_wft (l : LinkId) (n : NoticeKind) (s : State) : (raise l n s).wft = s.wft := by cases l <;> rfl
@[simp] theorem raise_hcc (l : LinkId) (n : NoticeKind) (s : State) : (raise l n s).hcc = s.hcc := by cases l <;> rfl
@[simp] theorem raise_grd (l : LinkId) (n : NoticeKind) (s : State) : (raise l n s).grd = s.grd := by cases l <;> rfl
@[simp] theorem raise_draws (l : LinkId) (n : NoticeKind) (s : State) : (raise l n s).draws = s.draws := by cases l <;> rfl
@[simp] theorem raise_pending (l : LinkId) (n : NoticeKind) (s : State) : (raise l n s).pending = s.pending := by cases l <;> rfl

/-! ### A dropped change -/

@[simp] theorem raiseDropped_ang (i : Half) (s : State) : (raiseDropped i s).ang = s.ang := rfl
@[simp] theorem raiseDropped_fst (i : Half) (s : State) : (raiseDropped i s).fst = s.fst := rfl
@[simp] theorem raiseDropped_wlb (i : Half) (s : State) : (raiseDropped i s).wlb = s.wlb := rfl
@[simp] theorem raiseDropped_hmp (i : Half) (s : State) : (raiseDropped i s).hmp = s.hmp := rfl
@[simp] theorem raiseDropped_xpe (i : Half) (s : State) : (raiseDropped i s).xpe = s.xpe := rfl
@[simp] theorem raiseDropped_seq (i : Half) (s : State) : (raiseDropped i s).seq = s.seq := rfl
@[simp] theorem raiseDropped_chu (i : Half) (s : State) : (raiseDropped i s).chu = s.chu := rfl
@[simp] theorem raiseDropped_wft (i : Half) (s : State) : (raiseDropped i s).wft = s.wft := rfl
@[simp] theorem raiseDropped_hcc (i : Half) (s : State) : (raiseDropped i s).hcc = s.hcc := rfl
@[simp] theorem raiseDropped_grd (i : Half) (s : State) : (raiseDropped i s).grd = s.grd := rfl
@[simp] theorem raiseDropped_draws (i : Half) (s : State) : (raiseDropped i s).draws = s.draws := rfl
@[simp] theorem raiseDropped_pending (i : Half) (s : State) : (raiseDropped i s).pending = s.pending := rfl
@[simp] theorem raiseDropped_dlk (i : Half) (s : State) : (raiseDropped i s).dlk = s.dlk := rfl
@[simp] theorem raiseDropped_wlk (i : Half) (s : State) : (raiseDropped i s).wlk = s.wlk := rfl

/-! ### An ignored trigger -/

@[simp] theorem raiseIgnored_ang (t : Trigger) (s : State) : (raiseIgnored t s).ang = s.ang := rfl
@[simp] theorem raiseIgnored_fst (t : Trigger) (s : State) : (raiseIgnored t s).fst = s.fst := rfl
@[simp] theorem raiseIgnored_wlb (t : Trigger) (s : State) : (raiseIgnored t s).wlb = s.wlb := rfl
@[simp] theorem raiseIgnored_hmp (t : Trigger) (s : State) : (raiseIgnored t s).hmp = s.hmp := rfl
@[simp] theorem raiseIgnored_xpe (t : Trigger) (s : State) : (raiseIgnored t s).xpe = s.xpe := rfl
@[simp] theorem raiseIgnored_seq (t : Trigger) (s : State) : (raiseIgnored t s).seq = s.seq := rfl
@[simp] theorem raiseIgnored_chu (t : Trigger) (s : State) : (raiseIgnored t s).chu = s.chu := rfl
@[simp] theorem raiseIgnored_wft (t : Trigger) (s : State) : (raiseIgnored t s).wft = s.wft := rfl
@[simp] theorem raiseIgnored_hcc (t : Trigger) (s : State) : (raiseIgnored t s).hcc = s.hcc := rfl
@[simp] theorem raiseIgnored_grd (t : Trigger) (s : State) : (raiseIgnored t s).grd = s.grd := rfl
@[simp] theorem raiseIgnored_draws (t : Trigger) (s : State) : (raiseIgnored t s).draws = s.draws := rfl
@[simp] theorem raiseIgnored_pending (t : Trigger) (s : State) : (raiseIgnored t s).pending = s.pending := rfl
@[simp] theorem raiseIgnored_dlk (t : Trigger) (s : State) : (raiseIgnored t s).dlk = s.dlk := rfl
@[simp] theorem raiseIgnored_wlk (t : Trigger) (s : State) : (raiseIgnored t s).wlk = s.wlk := rfl

/-! ### An answer -/

@[simp] theorem answer_ang (l : LinkId) (r : Response) (s : State) : (answer l r s).ang = s.ang := by cases l <;> rfl
@[simp] theorem answer_fst (l : LinkId) (r : Response) (s : State) : (answer l r s).fst = s.fst := by cases l <;> rfl
@[simp] theorem answer_wlb (l : LinkId) (r : Response) (s : State) : (answer l r s).wlb = s.wlb := by cases l <;> rfl
@[simp] theorem answer_hmp (l : LinkId) (r : Response) (s : State) : (answer l r s).hmp = s.hmp := by cases l <;> rfl
@[simp] theorem answer_xpe (l : LinkId) (r : Response) (s : State) : (answer l r s).xpe = s.xpe := by cases l <;> rfl
@[simp] theorem answer_seq (l : LinkId) (r : Response) (s : State) : (answer l r s).seq = s.seq := by cases l <;> rfl
@[simp] theorem answer_chu (l : LinkId) (r : Response) (s : State) : (answer l r s).chu = s.chu := by cases l <;> rfl
@[simp] theorem answer_wft (l : LinkId) (r : Response) (s : State) : (answer l r s).wft = s.wft := by cases l <;> rfl
@[simp] theorem answer_hcc (l : LinkId) (r : Response) (s : State) : (answer l r s).hcc = s.hcc := by cases l <;> rfl
@[simp] theorem answer_grd (l : LinkId) (r : Response) (s : State) : (answer l r s).grd = s.grd := by cases l <;> rfl
@[simp] theorem answer_draws (l : LinkId) (r : Response) (s : State) : (answer l r s).draws = s.draws := by cases l <;> rfl
@[simp] theorem answer_pending (l : LinkId) (r : Response) (s : State) : (answer l r s).pending = s.pending := by cases l <;> rfl

/-! ### A claim -/

@[simp] theorem claim_ang (r : HoldReason) (i : Fin 8) (s : State) : (claim r i s).ang = s.ang := rfl
@[simp] theorem claim_wlb (r : HoldReason) (i : Fin 8) (s : State) : (claim r i s).wlb = s.wlb := rfl
@[simp] theorem claim_hmp (r : HoldReason) (i : Fin 8) (s : State) : (claim r i s).hmp = s.hmp := rfl
@[simp] theorem claim_xpe (r : HoldReason) (i : Fin 8) (s : State) : (claim r i s).xpe = s.xpe := rfl
@[simp] theorem claim_seq (r : HoldReason) (i : Fin 8) (s : State) : (claim r i s).seq = s.seq := rfl
@[simp] theorem claim_chu (r : HoldReason) (i : Fin 8) (s : State) : (claim r i s).chu = s.chu := rfl
@[simp] theorem claim_wft (r : HoldReason) (i : Fin 8) (s : State) : (claim r i s).wft = s.wft := rfl
@[simp] theorem claim_hcc (r : HoldReason) (i : Fin 8) (s : State) : (claim r i s).hcc = s.hcc := rfl
@[simp] theorem claim_grd (r : HoldReason) (i : Fin 8) (s : State) : (claim r i s).grd = s.grd := rfl
@[simp] theorem claim_plk (r : HoldReason) (i : Fin 8) (s : State) : (claim r i s).plk = s.plk := rfl
@[simp] theorem claim_dlk (r : HoldReason) (i : Fin 8) (s : State) : (claim r i s).dlk = s.dlk := rfl
@[simp] theorem claim_wlk (r : HoldReason) (i : Fin 8) (s : State) : (claim r i s).wlk = s.wlk := rfl
@[simp] theorem claim_draws (r : HoldReason) (i : Fin 8) (s : State) : (claim r i s).draws = s.draws := rfl
@[simp] theorem claim_pending (r : HoldReason) (i : Fin 8) (s : State) : (claim r i s).pending = s.pending := rfl

/-! ### A release -/

@[simp] theorem release_ang (r : HoldReason) (i : Fin 8) (s : State) : (release r i s).ang = s.ang := rfl
@[simp] theorem release_wlb (r : HoldReason) (i : Fin 8) (s : State) : (release r i s).wlb = s.wlb := rfl
@[simp] theorem release_hmp (r : HoldReason) (i : Fin 8) (s : State) : (release r i s).hmp = s.hmp := rfl
@[simp] theorem release_xpe (r : HoldReason) (i : Fin 8) (s : State) : (release r i s).xpe = s.xpe := rfl
@[simp] theorem release_seq (r : HoldReason) (i : Fin 8) (s : State) : (release r i s).seq = s.seq := rfl
@[simp] theorem release_chu (r : HoldReason) (i : Fin 8) (s : State) : (release r i s).chu = s.chu := rfl
@[simp] theorem release_wft (r : HoldReason) (i : Fin 8) (s : State) : (release r i s).wft = s.wft := rfl
@[simp] theorem release_hcc (r : HoldReason) (i : Fin 8) (s : State) : (release r i s).hcc = s.hcc := rfl
@[simp] theorem release_grd (r : HoldReason) (i : Fin 8) (s : State) : (release r i s).grd = s.grd := rfl
@[simp] theorem release_plk (r : HoldReason) (i : Fin 8) (s : State) : (release r i s).plk = s.plk := rfl
@[simp] theorem release_dlk (r : HoldReason) (i : Fin 8) (s : State) : (release r i s).dlk = s.dlk := rfl
@[simp] theorem release_wlk (r : HoldReason) (i : Fin 8) (s : State) : (release r i s).wlk = s.wlk := rfl
@[simp] theorem release_draws (r : HoldReason) (i : Fin 8) (s : State) : (release r i s).draws = s.draws := rfl
@[simp] theorem release_pending (r : HoldReason) (i : Fin 8) (s : State) : (release r i s).pending = s.pending := rfl

/-! ### A count of a trigger -/

@[simp] theorem countTrigger_ang (t : Trigger) (s : State) : (countTrigger t s).ang = s.ang := rfl
@[simp] theorem countTrigger_fst (t : Trigger) (s : State) : (countTrigger t s).fst = s.fst := rfl
@[simp] theorem countTrigger_wlb (t : Trigger) (s : State) : (countTrigger t s).wlb = s.wlb := rfl
@[simp] theorem countTrigger_hmp (t : Trigger) (s : State) : (countTrigger t s).hmp = s.hmp := rfl
@[simp] theorem countTrigger_xpe (t : Trigger) (s : State) : (countTrigger t s).xpe = s.xpe := rfl
@[simp] theorem countTrigger_seq (t : Trigger) (s : State) : (countTrigger t s).seq = s.seq := rfl
@[simp] theorem countTrigger_chu (t : Trigger) (s : State) : (countTrigger t s).chu = s.chu := rfl
@[simp] theorem countTrigger_wft (t : Trigger) (s : State) : (countTrigger t s).wft = s.wft := rfl
@[simp] theorem countTrigger_hcc (t : Trigger) (s : State) : (countTrigger t s).hcc = s.hcc := rfl
@[simp] theorem countTrigger_plk (t : Trigger) (s : State) : (countTrigger t s).plk = s.plk := rfl
@[simp] theorem countTrigger_dlk (t : Trigger) (s : State) : (countTrigger t s).dlk = s.dlk := rfl
@[simp] theorem countTrigger_wlk (t : Trigger) (s : State) : (countTrigger t s).wlk = s.wlk := rfl
@[simp] theorem countTrigger_draws (t : Trigger) (s : State) : (countTrigger t s).draws = s.draws := rfl
@[simp] theorem countTrigger_pending (t : Trigger) (s : State) : (countTrigger t s).pending = s.pending := rfl

/-! ### The stall watch -/

@[simp] theorem stallOff_fst (s : State) : (stallOff s).fst = s.fst := rfl
@[simp] theorem stallOff_wlb (s : State) : (stallOff s).wlb = s.wlb := rfl
@[simp] theorem stallOff_hmp (s : State) : (stallOff s).hmp = s.hmp := rfl
@[simp] theorem stallOff_xpe (s : State) : (stallOff s).xpe = s.xpe := rfl
@[simp] theorem stallOff_seq (s : State) : (stallOff s).seq = s.seq := rfl
@[simp] theorem stallOff_chu (s : State) : (stallOff s).chu = s.chu := rfl
@[simp] theorem stallOff_wft (s : State) : (stallOff s).wft = s.wft := rfl
@[simp] theorem stallOff_hcc (s : State) : (stallOff s).hcc = s.hcc := rfl
@[simp] theorem stallOff_grd (s : State) : (stallOff s).grd = s.grd := rfl
@[simp] theorem stallOff_plk (s : State) : (stallOff s).plk = s.plk := rfl
@[simp] theorem stallOff_dlk (s : State) : (stallOff s).dlk = s.dlk := rfl
@[simp] theorem stallOff_wlk (s : State) : (stallOff s).wlk = s.wlk := rfl
@[simp] theorem stallOff_draws (s : State) : (stallOff s).draws = s.draws := rfl
@[simp] theorem stallOff_pending (s : State) : (stallOff s).pending = s.pending := rfl

/-! ### Reading a link -/

@[simp] theorem link_p (s : State) : s.link .p = s.plk := rfl
@[simp] theorem link_d (s : State) : s.link .d = s.dlk := rfl
@[simp] theorem link_w (s : State) : s.link .w = s.wlk := rfl

@[simp] theorem link_modLink (s : State) (l : LinkId) (f : Link → Link) : (s.modLink l f).link l = f (s.link l) := by
  cases l <;> rfl

theorem link_modLink_ne (s : State) {l m : LinkId} (f : Link → Link) (h : m ≠ l) : (s.modLink l f).link m = s.link m := by
  cases l <;> cases m <;> first | rfl | exact absurd rfl h

@[simp] theorem modLink_modLink (s : State) (l : LinkId) (f g : Link → Link) :
    (s.modLink l f).modLink l g = s.modLink l fun k => g (f k) := by cases l <;> rfl

/-- Updates of different links, and updates of one link that commute, may be exchanged. -/
theorem modLink_comm (s : State) {l m : LinkId} (f g : Link → Link) (h : l = m → ∀ k, f (g k) = g (f k)) :
    (s.modLink l f).modLink m g = (s.modLink m g).modLink l f := by
  cases l <;> cases m <;> first | rfl | simp [h rfl]

theorem modLink_congr (s : State) (l : LinkId) {f g : Link → Link} (h : f (s.link l) = g (s.link l)) :
    s.modLink l f = s.modLink l g := by
  cases l <;> (simp only [link_p, link_d, link_w] at h; simp only [State.modLink, h])

theorem modLink_id (s : State) (l : LinkId) : (s.modLink l fun k => k) = s := by cases l <;> rfl

/-! ### The links of an update of one link -/

@[simp] theorem modLink_p_dlk (s : State) (f : Link → Link) : (s.modLink .p f).dlk = s.dlk := rfl
@[simp] theorem modLink_p_wlk (s : State) (f : Link → Link) : (s.modLink .p f).wlk = s.wlk := rfl
@[simp] theorem modLink_d_plk (s : State) (f : Link → Link) : (s.modLink .d f).plk = s.plk := rfl
@[simp] theorem modLink_d_wlk (s : State) (f : Link → Link) : (s.modLink .d f).wlk = s.wlk := rfl
@[simp] theorem modLink_w_plk (s : State) (f : Link → Link) : (s.modLink .w f).plk = s.plk := rfl
@[simp] theorem modLink_w_dlk (s : State) (f : Link → Link) : (s.modLink .w f).dlk = s.dlk := rfl
@[simp] theorem raise_p_dlk (n : NoticeKind) (s : State) : (raise .p n s).dlk = s.dlk := rfl
@[simp] theorem raise_p_wlk (n : NoticeKind) (s : State) : (raise .p n s).wlk = s.wlk := rfl
@[simp] theorem raise_d_plk (n : NoticeKind) (s : State) : (raise .d n s).plk = s.plk := rfl
@[simp] theorem raise_d_wlk (n : NoticeKind) (s : State) : (raise .d n s).wlk = s.wlk := rfl
@[simp] theorem raise_w_plk (n : NoticeKind) (s : State) : (raise .w n s).plk = s.plk := rfl
@[simp] theorem raise_w_dlk (n : NoticeKind) (s : State) : (raise .w n s).dlk = s.dlk := rfl
@[simp] theorem answer_p_dlk (r : Response) (s : State) : (answer .p r s).dlk = s.dlk := rfl
@[simp] theorem answer_p_wlk (r : Response) (s : State) : (answer .p r s).wlk = s.wlk := rfl
@[simp] theorem answer_d_plk (r : Response) (s : State) : (answer .d r s).plk = s.plk := rfl
@[simp] theorem answer_d_wlk (r : Response) (s : State) : (answer .d r s).wlk = s.wlk := rfl
@[simp] theorem answer_w_plk (r : Response) (s : State) : (answer .w r s).plk = s.plk := rfl
@[simp] theorem answer_w_dlk (r : Response) (s : State) : (answer .w r s).dlk = s.dlk := rfl
@[simp] theorem modLink_p_plk (s : State) (f : Link → Link) : (s.modLink .p f).plk = f s.plk := rfl
@[simp] theorem raise_p_plk (n : NoticeKind) (s : State) : (raise .p n s).plk = Link.raise n s.plk := rfl
@[simp] theorem answer_p_plk (r : Response) (s : State) : (answer .p r s).plk = Link.answer r s.plk := rfl
@[simp] theorem modLink_d_dlk (s : State) (f : Link → Link) : (s.modLink .d f).dlk = f s.dlk := rfl
@[simp] theorem raise_d_dlk (n : NoticeKind) (s : State) : (raise .d n s).dlk = Link.raise n s.dlk := rfl
@[simp] theorem answer_d_dlk (r : Response) (s : State) : (answer .d r s).dlk = Link.answer r s.dlk := rfl
@[simp] theorem modLink_w_wlk (s : State) (f : Link → Link) : (s.modLink .w f).wlk = f s.wlk := rfl
@[simp] theorem raise_w_wlk (n : NoticeKind) (s : State) : (raise .w n s).wlk = Link.raise n s.wlk := rfl
@[simp] theorem answer_w_wlk (r : Response) (s : State) : (answer .w r s).wlk = Link.answer r s.wlk := rfl

/-- A kind raised is in the set; the kinds that were in it stay (R185). -/
@[simp] theorem mem_raise (n x : NoticeKind) (k : Link) : x ∈ (Link.raise n k).notices ↔ x = n ∨ x ∈ k.notices := by
  cases x <;> simp [Link.raise, Link.setNotices, joinKind, NoticeKind.all]

@[simp] theorem raise_rx (n : NoticeKind) (k : Link) : (Link.raise n k).rx = k.rx := rfl
@[simp] theorem raise_frame (n : NoticeKind) (k : Link) : (Link.raise n k).frame = k.frame := rfl
@[simp] theorem raise_outstanding (n : NoticeKind) (k : Link) : (Link.raise n k).outstanding = k.outstanding := rfl
@[simp] theorem raise_response (n : NoticeKind) (k : Link) : (Link.raise n k).response = k.response := rfl
@[simp] theorem raise_suppressed (n : NoticeKind) (k : Link) : (Link.raise n k).suppressed = k.suppressed := rfl
@[simp] theorem raise_errors (n : NoticeKind) (k : Link) : (Link.raise n k).errors = k.errors := rfl
@[simp] theorem raise_droppedId (n : NoticeKind) (k : Link) : (Link.raise n k).droppedId = k.droppedId := rfl
@[simp] theorem raise_ignored (n : NoticeKind) (k : Link) : (Link.raise n k).ignored = k.ignored := rfl
@[simp] theorem raise_mask (n : NoticeKind) (k : Link) : (Link.raise n k).mask = k.mask := rfl
@[simp] theorem raise_attention (n : NoticeKind) (k : Link) :
    (Link.raise n k).attention = attentionOf (Link.raise n k).notices k.mask := rfl

/-- An answer leaves the notices of its link. -/
@[simp] theorem answer_notices (r : Response) (k : Link) : (Link.answer r k).notices = k.notices := by
  unfold Link.answer; split <;> (try split) <;> rfl
@[simp] theorem answer_mask (r : Response) (k : Link) : (Link.answer r k).mask = k.mask := by
  unfold Link.answer; split <;> (try split) <;> rfl
@[simp] theorem answer_attention (r : Response) (k : Link) : (Link.answer r k).attention = k.attention := by
  unfold Link.answer; split <;> (try split) <;> rfl
@[simp] theorem answer_droppedId (r : Response) (k : Link) : (Link.answer r k).droppedId = k.droppedId := by
  unfold Link.answer; split <;> (try split) <;> rfl
@[simp] theorem answer_ignored (r : Response) (k : Link) : (Link.answer r k).ignored = k.ignored := by
  unfold Link.answer; split <;> (try split) <;> rfl
@[simp] theorem answer_none (r : Response) (k : Link) (h : k.outstanding = none) : Link.answer r k = k := by
  simp [Link.answer, h]

/-! ### Slots -/

theorem get_eq {α : Type} {n : Nat} (v : Vector α n) (i : Fin n) : v.get i = v[i.1] := rfl

@[simp] theorem get_upd {α : Type} {n : Nat} (v : Vector α n) (i : Fin n) (x : α) : (upd v i x).get i = x := by
  simp [upd, get_eq]

theorem get_upd_ne {α : Type} {n : Nat} (v : Vector α n) {i j : Fin n} (x : α) (h : j ≠ i) :
    (upd v i x).get j = v.get j := by
  have : i.1 ≠ j.1 := fun e => h (Fin.ext e.symm)
  simp [upd, get_eq, this]

theorem get_upd_eq {α : Type} {n : Nat} (v : Vector α n) (i j : Fin n) (x : α) :
    (upd v i x).get j = if j = i then x else v.get j := by
  by_cases h : j = i
  · subst h; simp
  · simp [h, get_upd_ne v x h]

theorem vector_ext_get {α : Type} {n : Nat} {v w : Vector α n} (h : ∀ i, v.get i = w.get i) : v = w :=
  Vector.ext fun k hk => h ⟨k, hk⟩

@[simp] theorem upd_get {α : Type} {n : Nat} (v : Vector α n) (i : Fin n) : upd v i (v.get i) = v := by
  apply vector_ext_get; intro j; rw [get_upd_eq]; split
  · rename_i h; rw [h]
  · rfl

@[simp] theorem get_ofFn {α : Type} {n : Nat} (f : Fin n → α) (i : Fin n) : (Vector.ofFn f).get i = f i := by
  simp [get_eq]

@[simp] theorem get_replicate {α : Type} {n : Nat} (x : α) (i : Fin n) : (Vector.replicate n x).get i = x := by
  simp [get_eq]

@[simp] theorem get_map {α β : Type} {n : Nat} (f : α → β) (v : Vector α n) (i : Fin n) :
    (v.map f).get i = f (v.get i) := by
  simp [get_eq]

theorem slot_claim (r : HoldReason) (i j : Fin 8) (s : State) :
    (claim r i s).slot j = if j = i then { s.slot i with refs := (s.slot i).refs.modify (· + 1) r } else s.slot j := by
  simp [claim, State.slot, Fst.modSlot, get_upd_eq]

theorem slot_release (r : HoldReason) (i j : Fin 8) (s : State) :
    (release r i s).slot j = if j = i then { s.slot i with refs := (s.slot i).refs.modify (· - 1) r } else s.slot j := by
  simp [release, State.slot, Fst.modSlot, get_upd_eq]

@[simp] theorem owner_modSlot (f : Fst) (i : Fin 8) (g : Slot → Slot) : (f.modSlot i g).owner = f.owner := rfl
@[simp] theorem free_modSlot (f : Fst) (i : Fin 8) (g : Slot → Slot) : (f.modSlot i g).free = f.free := rfl

theorem slots_modSlot (f : Fst) (i j : Fin 8) (g : Slot → Slot) :
    (f.modSlot i g).slots.get j = if j = i then g (f.slots.get i) else f.slots.get j := by
  simp [Fst.modSlot, get_upd_eq]

/-- A claim or release changes reference counts alone. -/
@[simp] theorem design_claim (r : HoldReason) (i j : Fin 8) (s : State) : (claim r i s).design j = s.design j := by
  simp only [State.design, slot_claim]; split <;> simp_all

@[simp] theorem design_release (r : HoldReason) (i j : Fin 8) (s : State) : (release r i s).design j = s.design j := by
  simp only [State.design, slot_release]; split <;> simp_all

end Sys2Proof.Machine
end

