-- ==== Sys2Proof/Laws/Guarding.lean ====
section
/-! SUPPORT. What the operations that stop the weaving side leave: for every operation of Machine/Guarding.lean the units it
does not touch, and what it makes of those it does. A proof about a trigger, a guard entry or a discard cites these. -/

namespace Sys2Proof.Machine

/-! ### The release of the latched record -/

@[simp] theorem releaseLatched_ang (l : Latched) (s : State) : (releaseLatched l s).ang = s.ang := by unfold releaseLatched; split <;> rfl
@[simp] theorem releaseLatched_wlb (l : Latched) (s : State) : (releaseLatched l s).wlb = s.wlb := by unfold releaseLatched; split <;> rfl
@[simp] theorem releaseLatched_hmp (l : Latched) (s : State) : (releaseLatched l s).hmp = s.hmp := by unfold releaseLatched; split <;> rfl
@[simp] theorem releaseLatched_xpe (l : Latched) (s : State) : (releaseLatched l s).xpe = s.xpe := by unfold releaseLatched; split <;> rfl
@[simp] theorem releaseLatched_seq (l : Latched) (s : State) : (releaseLatched l s).seq = s.seq := by unfold releaseLatched; split <;> rfl
@[simp] theorem releaseLatched_chu (l : Latched) (s : State) : (releaseLatched l s).chu = s.chu := by unfold releaseLatched; split <;> rfl
@[simp] theorem releaseLatched_wft (l : Latched) (s : State) : (releaseLatched l s).wft = s.wft := by unfold releaseLatched; split <;> rfl
@[simp] theorem releaseLatched_hcc (l : Latched) (s : State) : (releaseLatched l s).hcc = s.hcc := by unfold releaseLatched; split <;> rfl
@[simp] theorem releaseLatched_grd (l : Latched) (s : State) : (releaseLatched l s).grd = s.grd := by unfold releaseLatched; split <;> rfl
@[simp] theorem releaseLatched_plk (l : Latched) (s : State) : (releaseLatched l s).plk = s.plk := by unfold releaseLatched; split <;> rfl
@[simp] theorem releaseLatched_dlk (l : Latched) (s : State) : (releaseLatched l s).dlk = s.dlk := by unfold releaseLatched; split <;> rfl
@[simp] theorem releaseLatched_wlk (l : Latched) (s : State) : (releaseLatched l s).wlk = s.wlk := by unfold releaseLatched; split <;> rfl
@[simp] theorem releaseLatched_draws (l : Latched) (s : State) : (releaseLatched l s).draws = s.draws := by unfold releaseLatched; split <;> rfl
@[simp] theorem releaseLatched_pending (l : Latched) (s : State) : (releaseLatched l s).pending = s.pending := by unfold releaseLatched; split <;> rfl

/-! ### An answer of READ-MODULES -/

@[simp] theorem answerModules_ang (r : List Byte) (c : List Nat) (s : State) : (answerModules r c s).ang = s.ang := by simp [answerModules]
@[simp] theorem answerModules_fst (r : List Byte) (c : List Nat) (s : State) : (answerModules r c s).fst = s.fst := by simp [answerModules]
@[simp] theorem answerModules_wlb (r : List Byte) (c : List Nat) (s : State) : (answerModules r c s).wlb = s.wlb := by simp [answerModules]
@[simp] theorem answerModules_hmp (r : List Byte) (c : List Nat) (s : State) : (answerModules r c s).hmp = s.hmp := by simp [answerModules]
@[simp] theorem answerModules_xpe (r : List Byte) (c : List Nat) (s : State) : (answerModules r c s).xpe = s.xpe := by simp [answerModules]
@[simp] theorem answerModules_seq (r : List Byte) (c : List Nat) (s : State) : (answerModules r c s).seq = s.seq := by simp [answerModules]
@[simp] theorem answerModules_chu (r : List Byte) (c : List Nat) (s : State) : (answerModules r c s).chu = s.chu := by simp [answerModules]
@[simp] theorem answerModules_wft (r : List Byte) (c : List Nat) (s : State) : (answerModules r c s).wft = s.wft := by simp [answerModules]
@[simp] theorem answerModules_grd (r : List Byte) (c : List Nat) (s : State) : (answerModules r c s).grd = s.grd := by simp [answerModules]
@[simp] theorem answerModules_dlk (r : List Byte) (c : List Nat) (s : State) : (answerModules r c s).dlk = s.dlk := by simp [answerModules]
@[simp] theorem answerModules_wlk (r : List Byte) (c : List Nat) (s : State) : (answerModules r c s).wlk = s.wlk := by simp [answerModules]
@[simp] theorem answerModules_draws (r : List Byte) (c : List Nat) (s : State) : (answerModules r c s).draws = s.draws := by simp [answerModules]
@[simp] theorem answerModules_pending (r : List Byte) (c : List Nat) (s : State) : (answerModules r c s).pending = s.pending := by simp [answerModules]

@[simp] theorem answerModules_hcc (r : List Byte) (c : List Nat) (s : State) :
    (answerModules r c s).hcc = { s.hcc with echoErrors := clearErrors c s.hcc.echoErrors } := by simp [answerModules]

/-! ### The abandonment of a refresh -/

@[simp] theorem abandonRefresh_ang (s : State) : (abandonRefresh s).ang = s.ang := by simp [abandonRefresh]
@[simp] theorem abandonRefresh_fst (s : State) : (abandonRefresh s).fst = s.fst := by simp [abandonRefresh]
@[simp] theorem abandonRefresh_wlb (s : State) : (abandonRefresh s).wlb = s.wlb := by simp [abandonRefresh]
@[simp] theorem abandonRefresh_hmp (s : State) : (abandonRefresh s).hmp = s.hmp := by simp [abandonRefresh]
@[simp] theorem abandonRefresh_xpe (s : State) : (abandonRefresh s).xpe = s.xpe := by simp [abandonRefresh]
@[simp] theorem abandonRefresh_seq (s : State) : (abandonRefresh s).seq = s.seq := by simp [abandonRefresh]
@[simp] theorem abandonRefresh_chu (s : State) : (abandonRefresh s).chu = s.chu := by simp [abandonRefresh]
@[simp] theorem abandonRefresh_wft (s : State) : (abandonRefresh s).wft = s.wft := by simp [abandonRefresh]
@[simp] theorem abandonRefresh_grd (s : State) : (abandonRefresh s).grd = s.grd := by simp [abandonRefresh]
@[simp] theorem abandonRefresh_dlk (s : State) : (abandonRefresh s).dlk = s.dlk := by simp [abandonRefresh]
@[simp] theorem abandonRefresh_wlk (s : State) : (abandonRefresh s).wlk = s.wlk := by simp [abandonRefresh]
@[simp] theorem abandonRefresh_draws (s : State) : (abandonRefresh s).draws = s.draws := by simp [abandonRefresh]
@[simp] theorem abandonRefresh_pending (s : State) : (abandonRefresh s).pending = s.pending := by simp [abandonRefresh]

@[simp] theorem abandonRefresh_hcc (s : State) : (abandonRefresh s).hcc = { s.hcc with
    transfer := .idle, refreshClear := [], echoErrors := clearErrors s.hcc.refreshClear s.hcc.echoErrors } := by simp [abandonRefresh]

/-! ### The end of a refresh -/

@[simp] theorem endRefresh_ang (s : State) : (endRefresh s).ang = s.ang := by unfold endRefresh; split <;> simp
@[simp] theorem endRefresh_fst (s : State) : (endRefresh s).fst = s.fst := by unfold endRefresh; split <;> simp
@[simp] theorem endRefresh_wlb (s : State) : (endRefresh s).wlb = s.wlb := by unfold endRefresh; split <;> simp
@[simp] theorem endRefresh_hmp (s : State) : (endRefresh s).hmp = s.hmp := by unfold endRefresh; split <;> simp
@[simp] theorem endRefresh_xpe (s : State) : (endRefresh s).xpe = s.xpe := by unfold endRefresh; split <;> simp
@[simp] theorem endRefresh_seq (s : State) : (endRefresh s).seq = s.seq := by unfold endRefresh; split <;> simp
@[simp] theorem endRefresh_chu (s : State) : (endRefresh s).chu = s.chu := by unfold endRefresh; split <;> simp
@[simp] theorem endRefresh_wft (s : State) : (endRefresh s).wft = s.wft := by unfold endRefresh; split <;> simp
@[simp] theorem endRefresh_grd (s : State) : (endRefresh s).grd = s.grd := by unfold endRefresh; split <;> simp
@[simp] theorem endRefresh_dlk (s : State) : (endRefresh s).dlk = s.dlk := by unfold endRefresh; split <;> simp
@[simp] theorem endRefresh_wlk (s : State) : (endRefresh s).wlk = s.wlk := by unfold endRefresh; split <;> simp
@[simp] theorem endRefresh_draws (s : State) : (endRefresh s).draws = s.draws := by unfold endRefresh; split <;> simp
@[simp] theorem endRefresh_pending (s : State) : (endRefresh s).pending = s.pending := by unfold endRefresh; split <;> simp

/-! ### The abandonment of a bus activity -/

@[simp] theorem abandonTransfer_ang (s : State) : (abandonTransfer s).ang = s.ang := by unfold abandonTransfer; split <;> simp
@[simp] theorem abandonTransfer_fst (s : State) : (abandonTransfer s).fst = s.fst := by unfold abandonTransfer; split <;> simp
@[simp] theorem abandonTransfer_wlb (s : State) : (abandonTransfer s).wlb = s.wlb := by unfold abandonTransfer; split <;> simp
@[simp] theorem abandonTransfer_hmp (s : State) : (abandonTransfer s).hmp = s.hmp := by unfold abandonTransfer; split <;> simp
@[simp] theorem abandonTransfer_xpe (s : State) : (abandonTransfer s).xpe = s.xpe := by unfold abandonTransfer; split <;> simp
@[simp] theorem abandonTransfer_seq (s : State) : (abandonTransfer s).seq = s.seq := by unfold abandonTransfer; split <;> simp
@[simp] theorem abandonTransfer_chu (s : State) : (abandonTransfer s).chu = s.chu := by unfold abandonTransfer; split <;> simp
@[simp] theorem abandonTransfer_wft (s : State) : (abandonTransfer s).wft = s.wft := by unfold abandonTransfer; split <;> simp
@[simp] theorem abandonTransfer_grd (s : State) : (abandonTransfer s).grd = s.grd := by unfold abandonTransfer; split <;> simp
@[simp] theorem abandonTransfer_dlk (s : State) : (abandonTransfer s).dlk = s.dlk := by unfold abandonTransfer; split <;> simp
@[simp] theorem abandonTransfer_wlk (s : State) : (abandonTransfer s).wlk = s.wlk := by unfold abandonTransfer; split <;> simp
@[simp] theorem abandonTransfer_draws (s : State) : (abandonTransfer s).draws = s.draws := by unfold abandonTransfer; split <;> simp
@[simp] theorem abandonTransfer_pending (s : State) : (abandonTransfer s).pending = s.pending := by unfold abandonTransfer; split <;> simp

/-! ### DROP-ALL -/

@[simp] theorem dropAll_ang (s : State) : (dropAll s).ang = s.ang := by unfold dropAll; split <;> simp
@[simp] theorem dropAll_wlb (s : State) : (dropAll s).wlb = s.wlb := by unfold dropAll; split <;> simp
@[simp] theorem dropAll_hmp (s : State) : (dropAll s).hmp = s.hmp := by unfold dropAll; split <;> simp
@[simp] theorem dropAll_xpe (s : State) : (dropAll s).xpe = s.xpe := by unfold dropAll; split <;> simp
@[simp] theorem dropAll_seq (s : State) : (dropAll s).seq = s.seq := by unfold dropAll; split <;> simp
@[simp] theorem dropAll_chu (s : State) : (dropAll s).chu = s.chu := by unfold dropAll; split <;> simp
@[simp] theorem dropAll_wft (s : State) : (dropAll s).wft = s.wft := by unfold dropAll; split <;> simp
@[simp] theorem dropAll_grd (s : State) : (dropAll s).grd = s.grd := by unfold dropAll; split <;> simp
@[simp] theorem dropAll_dlk (s : State) : (dropAll s).dlk = s.dlk := by unfold dropAll; split <;> simp
@[simp] theorem dropAll_wlk (s : State) : (dropAll s).wlk = s.wlk := by unfold dropAll; split <;> simp
@[simp] theorem dropAll_draws (s : State) : (dropAll s).draws = s.draws := by unfold dropAll; split <;> simp
@[simp] theorem dropAll_pending (s : State) : (dropAll s).pending = s.pending := by unfold dropAll; split <;> simp

/-! ### The discard of the staged pick -/

@[simp] theorem discardStaging_ang (s : State) : (discardStaging s).ang = s.ang := by unfold discardStaging; split <;> (try split) <;> rfl
@[simp] theorem discardStaging_wlb (s : State) : (discardStaging s).wlb = s.wlb := by unfold discardStaging; split <;> (try split) <;> rfl
@[simp] theorem discardStaging_hmp (s : State) : (discardStaging s).hmp = s.hmp := by unfold discardStaging; split <;> (try split) <;> rfl
@[simp] theorem discardStaging_seq (s : State) : (discardStaging s).seq = s.seq := by unfold discardStaging; split <;> (try split) <;> rfl
@[simp] theorem discardStaging_chu (s : State) : (discardStaging s).chu = s.chu := by unfold discardStaging; split <;> (try split) <;> rfl
@[simp] theorem discardStaging_grd (s : State) : (discardStaging s).grd = s.grd := by unfold discardStaging; split <;> (try split) <;> rfl
@[simp] theorem discardStaging_plk (s : State) : (discardStaging s).plk = s.plk := by unfold discardStaging; split <;> (try split) <;> rfl
@[simp] theorem discardStaging_dlk (s : State) : (discardStaging s).dlk = s.dlk := by unfold discardStaging; split <;> (try split) <;> rfl
@[simp] theorem discardStaging_wlk (s : State) : (discardStaging s).wlk = s.wlk := by unfold discardStaging; split <;> (try split) <;> rfl
@[simp] theorem discardStaging_draws (s : State) : (discardStaging s).draws = s.draws := by unfold discardStaging; split <;> (try split) <;> rfl
@[simp] theorem discardStaging_pending (s : State) : (discardStaging s).pending = s.pending := by unfold discardStaging; split <;> (try split) <;> rfl

/-! ### The record of an entry -/

@[simp] theorem recordEntry_ang (t : Trigger) (s : State) : (recordEntry t s).ang = s.ang := rfl
@[simp] theorem recordEntry_fst (t : Trigger) (s : State) : (recordEntry t s).fst = s.fst := rfl
@[simp] theorem recordEntry_wlb (t : Trigger) (s : State) : (recordEntry t s).wlb = s.wlb := rfl
@[simp] theorem recordEntry_hmp (t : Trigger) (s : State) : (recordEntry t s).hmp = s.hmp := rfl
@[simp] theorem recordEntry_xpe (t : Trigger) (s : State) : (recordEntry t s).xpe = s.xpe := rfl
@[simp] theorem recordEntry_seq (t : Trigger) (s : State) : (recordEntry t s).seq = s.seq := rfl
@[simp] theorem recordEntry_chu (t : Trigger) (s : State) : (recordEntry t s).chu = s.chu := rfl
@[simp] theorem recordEntry_wft (t : Trigger) (s : State) : (recordEntry t s).wft = s.wft := rfl
@[simp] theorem recordEntry_hcc (t : Trigger) (s : State) : (recordEntry t s).hcc = s.hcc := rfl
@[simp] theorem recordEntry_plk (t : Trigger) (s : State) : (recordEntry t s).plk = s.plk := rfl
@[simp] theorem recordEntry_dlk (t : Trigger) (s : State) : (recordEntry t s).dlk = s.dlk := rfl
@[simp] theorem recordEntry_wlk (t : Trigger) (s : State) : (recordEntry t s).wlk = s.wlk := rfl
@[simp] theorem recordEntry_draws (t : Trigger) (s : State) : (recordEntry t s).draws = s.draws := rfl
@[simp] theorem recordEntry_pending (t : Trigger) (s : State) : (recordEntry t s).pending = s.pending := rfl

/-! ### The interrupted window -/

@[simp] theorem interruptWindow_ang (s : State) : (interruptWindow s).ang = s.ang := rfl
@[simp] theorem interruptWindow_fst (s : State) : (interruptWindow s).fst = s.fst := rfl
@[simp] theorem interruptWindow_wlb (s : State) : (interruptWindow s).wlb = s.wlb := rfl
@[simp] theorem interruptWindow_hmp (s : State) : (interruptWindow s).hmp = s.hmp := rfl
@[simp] theorem interruptWindow_xpe (s : State) : (interruptWindow s).xpe = s.xpe := rfl
@[simp] theorem interruptWindow_seq (s : State) : (interruptWindow s).seq = s.seq := rfl
@[simp] theorem interruptWindow_chu (s : State) : (interruptWindow s).chu = s.chu := rfl
@[simp] theorem interruptWindow_hcc (s : State) : (interruptWindow s).hcc = s.hcc := rfl
@[simp] theorem interruptWindow_grd (s : State) : (interruptWindow s).grd = s.grd := rfl
@[simp] theorem interruptWindow_plk (s : State) : (interruptWindow s).plk = s.plk := rfl
@[simp] theorem interruptWindow_dlk (s : State) : (interruptWindow s).dlk = s.dlk := rfl
@[simp] theorem interruptWindow_wlk (s : State) : (interruptWindow s).wlk = s.wlk := rfl
@[simp] theorem interruptWindow_draws (s : State) : (interruptWindow s).draws = s.draws := rfl
@[simp] theorem interruptWindow_pending (s : State) : (interruptWindow s).pending = s.pending := rfl

/-! ### A departure from READY -/

@[simp] theorem departed_ang (q : SeqState) (s : State) : (departed q s).ang = s.ang := by unfold departed; split <;> rfl
@[simp] theorem departed_fst (q : SeqState) (s : State) : (departed q s).fst = s.fst := by unfold departed; split <;> rfl
@[simp] theorem departed_wlb (q : SeqState) (s : State) : (departed q s).wlb = s.wlb := by unfold departed; split <;> rfl
@[simp] theorem departed_hmp (q : SeqState) (s : State) : (departed q s).hmp = s.hmp := by unfold departed; split <;> rfl
@[simp] theorem departed_xpe (q : SeqState) (s : State) : (departed q s).xpe = s.xpe := by unfold departed; split <;> rfl
@[simp] theorem departed_seq (q : SeqState) (s : State) : (departed q s).seq = s.seq := by unfold departed; split <;> rfl
@[simp] theorem departed_chu (q : SeqState) (s : State) : (departed q s).chu = s.chu := by unfold departed; split <;> rfl
@[simp] theorem departed_wft (q : SeqState) (s : State) : (departed q s).wft = s.wft := by unfold departed; split <;> rfl
@[simp] theorem departed_hcc (q : SeqState) (s : State) : (departed q s).hcc = s.hcc := by unfold departed; split <;> rfl
@[simp] theorem departed_grd (q : SeqState) (s : State) : (departed q s).grd = s.grd := by unfold departed; split <;> rfl
@[simp] theorem departed_plk (q : SeqState) (s : State) : (departed q s).plk = s.plk := by unfold departed; split <;> rfl
@[simp] theorem departed_wlk (q : SeqState) (s : State) : (departed q s).wlk = s.wlk := by unfold departed; split <;> rfl
@[simp] theorem departed_draws (q : SeqState) (s : State) : (departed q s).draws = s.draws := by unfold departed; split <;> rfl
@[simp] theorem departed_pending (q : SeqState) (s : State) : (departed q s).pending = s.pending := by unfold departed; split <;> rfl

/-! ### The sequencer into guard -/

@[simp] theorem seqIntoGuard_fst (h : Bool) (s : State) : (seqIntoGuard h s).fst = s.fst := by simp [seqIntoGuard]
@[simp] theorem seqIntoGuard_wlb (h : Bool) (s : State) : (seqIntoGuard h s).wlb = s.wlb := by simp [seqIntoGuard]
@[simp] theorem seqIntoGuard_hmp (h : Bool) (s : State) : (seqIntoGuard h s).hmp = s.hmp := by simp [seqIntoGuard]
@[simp] theorem seqIntoGuard_xpe (h : Bool) (s : State) : (seqIntoGuard h s).xpe = s.xpe := by simp [seqIntoGuard]
@[simp] theorem seqIntoGuard_chu (h : Bool) (s : State) : (seqIntoGuard h s).chu = s.chu := by simp [seqIntoGuard]
@[simp] theorem seqIntoGuard_wft (h : Bool) (s : State) : (seqIntoGuard h s).wft = s.wft := by simp [seqIntoGuard]
@[simp] theorem seqIntoGuard_hcc (h : Bool) (s : State) : (seqIntoGuard h s).hcc = s.hcc := by simp [seqIntoGuard]
@[simp] theorem seqIntoGuard_plk (h : Bool) (s : State) : (seqIntoGuard h s).plk = s.plk := by simp [seqIntoGuard]
@[simp] theorem seqIntoGuard_wlk (h : Bool) (s : State) : (seqIntoGuard h s).wlk = s.wlk := by simp [seqIntoGuard]
@[simp] theorem seqIntoGuard_draws (h : Bool) (s : State) : (seqIntoGuard h s).draws = s.draws := by simp [seqIntoGuard]
@[simp] theorem seqIntoGuard_pending (h : Bool) (s : State) : (seqIntoGuard h s).pending = s.pending := by simp [seqIntoGuard]

/-! ### The notices of an entry -/

@[simp] theorem entryNotices_ang (h : Bool) (s : State) : (entryNotices h s).ang = s.ang := by cases h <;> rfl
@[simp] theorem entryNotices_fst (h : Bool) (s : State) : (entryNotices h s).fst = s.fst := by cases h <;> rfl
@[simp] theorem entryNotices_wlb (h : Bool) (s : State) : (entryNotices h s).wlb = s.wlb := by cases h <;> rfl
@[simp] theorem entryNotices_hmp (h : Bool) (s : State) : (entryNotices h s).hmp = s.hmp := by cases h <;> rfl
@[simp] theorem entryNotices_xpe (h : Bool) (s : State) : (entryNotices h s).xpe = s.xpe := by cases h <;> rfl
@[simp] theorem entryNotices_seq (h : Bool) (s : State) : (entryNotices h s).seq = s.seq := by cases h <;> rfl
@[simp] theorem entryNotices_chu (h : Bool) (s : State) : (entryNotices h s).chu = s.chu := by cases h <;> rfl
@[simp] theorem entryNotices_wft (h : Bool) (s : State) : (entryNotices h s).wft = s.wft := by cases h <;> rfl
@[simp] theorem entryNotices_hcc (h : Bool) (s : State) : (entryNotices h s).hcc = s.hcc := by cases h <;> rfl
@[simp] theorem entryNotices_grd (h : Bool) (s : State) : (entryNotices h s).grd = s.grd := by cases h <;> rfl
@[simp] theorem entryNotices_draws (h : Bool) (s : State) : (entryNotices h s).draws = s.draws := by cases h <;> rfl
@[simp] theorem entryNotices_pending (h : Bool) (s : State) : (entryNotices h s).pending = s.pending := by cases h <;> rfl

/-! ### The shed -/

@[simp] theorem shedHooks_ang (s : State) : (shedHooks s).ang = s.ang := by unfold shedHooks; split <;> simp
@[simp] theorem shedHooks_wlb (s : State) : (shedHooks s).wlb = s.wlb := by unfold shedHooks; split <;> simp
@[simp] theorem shedHooks_hmp (s : State) : (shedHooks s).hmp = s.hmp := by unfold shedHooks; split <;> simp
@[simp] theorem shedHooks_xpe (s : State) : (shedHooks s).xpe = s.xpe := by unfold shedHooks; split <;> simp
@[simp] theorem shedHooks_seq (s : State) : (shedHooks s).seq = s.seq := by unfold shedHooks; split <;> simp
@[simp] theorem shedHooks_chu (s : State) : (shedHooks s).chu = s.chu := by unfold shedHooks; split <;> simp
@[simp] theorem shedHooks_wft (s : State) : (shedHooks s).wft = s.wft := by unfold shedHooks; split <;> simp
@[simp] theorem shedHooks_grd (s : State) : (shedHooks s).grd = s.grd := by unfold shedHooks; split <;> simp
@[simp] theorem shedHooks_dlk (s : State) : (shedHooks s).dlk = s.dlk := by unfold shedHooks; split <;> simp
@[simp] theorem shedHooks_wlk (s : State) : (shedHooks s).wlk = s.wlk := by unfold shedHooks; split <;> simp
@[simp] theorem shedHooks_draws (s : State) : (shedHooks s).draws = s.draws := by unfold shedHooks; split <;> simp
@[simp] theorem shedHooks_pending (s : State) : (shedHooks s).pending = s.pending := by unfold shedHooks; split <;> simp

/-! ### A guard entry -/

@[simp] theorem guardEntry_wlb (t : Trigger) (s : State) : (guardEntry t s).wlb = s.wlb := by simp [guardEntry]
@[simp] theorem guardEntry_hmp (t : Trigger) (s : State) : (guardEntry t s).hmp = s.hmp := by simp [guardEntry]
@[simp] theorem guardEntry_chu (t : Trigger) (s : State) : (guardEntry t s).chu = s.chu := by simp [guardEntry]
@[simp] theorem guardEntry_draws (t : Trigger) (s : State) : (guardEntry t s).draws = s.draws := by simp [guardEntry]
@[simp] theorem guardEntry_pending (t : Trigger) (s : State) : (guardEntry t s).pending = s.pending := by simp [guardEntry]

@[simp] theorem guardEntry_seq (t : Trigger) (s : State) : (guardEntry t s).seq = { s.seq with
    state := if s.grd.entersHalted t then .halted else .guard
    grant := .none, coasting := true, present := none, findWaiting := 0, presentWaiting := false } := by
  simp [guardEntry, seqIntoGuard]

@[simp] theorem guardEntry_ang (t : Trigger) (s : State) :
    (guardEntry t s).ang = { s.ang with stallWatch := .off, stallTimer := none } := by
  simp [guardEntry, seqIntoGuard, stallOff]

@[simp] theorem guardEntry_grd (t : Trigger) (s : State) : (guardEntry t s).grd = { s.grd with
    count := s.grd.countAfter t
    causes := joinCause t s.grd.causes
    entry := some ⟨t, s.seq.state, s.seq.cursor.map (·.serial), s.ang.angle, s.grd.entersHalted t⟩
    run := 0, stopRequest := true } := by
  simp [guardEntry, seqIntoGuard, recordEntry]

/-! ### What the hooks and the weft unit keep -/

@[simp] theorem restore_feeders (w : Wft) (g : Option PlannedGroup) : (w.restore g).feeders = w.feeders := by
  cases g <;> rfl
@[simp] theorem restore_limit (w : Wft) (g : Option PlannedGroup) : (w.restore g).limit = w.limit := by cases g <;> rfl
@[simp] theorem restore_window (w : Wft) (g : Option PlannedGroup) : (w.restore g).window = w.window := by cases g <;> rfl
@[simp] theorem restore_capture (w : Wft) (g : Option PlannedGroup) : (w.restore g).capture = w.capture := by
  cases g <;> rfl
@[simp] theorem restore_report (w : Wft) (g : Option PlannedGroup) : (w.restore g).report = w.report := by cases g <;> rfl
@[simp] theorem restore_verdict (w : Wft) (g : Option PlannedGroup) : (w.restore g).verdict = w.verdict := by
  cases g <;> rfl
@[simp] theorem restore_extra (w : Wft) (g : Option PlannedGroup) : (w.restore g).extra = w.extra := by cases g <;> rfl
@[simp] theorem restore_stray (w : Wft) (g : Option PlannedGroup) : (w.restore g).stray = w.stray := by cases g <;> rfl
@[simp] theorem restore_withheld (w : Wft) (g : Option PlannedGroup) : (w.restore g).withheld = w.withheld := by
  cases g <;> rfl

theorem restore_groups (w : Wft) (g : Option PlannedGroup) :
    ∃ v : Vector Group 8, w.restore g = { w with groups := v } := by
  cases g <;> exact ⟨_, rfl⟩

/-- A discard hands a plan back: of the weft unit only the groups can change. -/
theorem discardStaging_wft (s : State) : ∃ g : Vector Group 8, (discardStaging s).wft = { s.wft with groups := g } := by
  unfold discardStaging
  split
  · exact ⟨_, rfl⟩
  · split
    · exact ⟨_, rfl⟩
    all_goals
      simp only [release_wft]
      exact restore_groups ..

/-- A discard can only take the transfer of the discarded pick to IDLE. -/
theorem discardStaging_hcc (s : State) :
    (discardStaging s).hcc = s.hcc ∨ (discardStaging s).hcc = { s.hcc with transfer := .idle } := by
  unfold discardStaging
  split
  · exact .inl rfl
  · split
    · exact .inl rfl
    · exact .inl rfl
    · rename_i p _ _
      by_cases h : s.hcc.transfer.carries p
      · exact .inr (by simp [release, h])
      · exact .inl (by simp [release, h])

/-- While TAKING a discard is held (R110). -/
theorem discardStaging_taking {s : State} (h : s.hcc.isTaking = true) : discardStaging s = s := by
  unfold discardStaging
  cases ht : s.hcc.transfer <;> simp [Hcc.isTaking, ht] at h ⊢

/-- Otherwise the buffer is EMPTY afterwards. -/
theorem discardStaging_xpe {s : State} (h : s.hcc.isTaking = false) : (discardStaging s).xpe = ⟨none, .empty⟩ := by
  unfold discardStaging
  cases ht : s.hcc.transfer <;> simp [Hcc.isTaking, ht] at h ⊢ <;> split <;> rfl

/-- No operation of a guard entry begins or ends a TAKE. -/
theorem discardStaging_isTaking (s : State) : (discardStaging s).hcc.isTaking = s.hcc.isTaking := by
  cases h : s.hcc.isTaking
  · rcases discardStaging_hcc s with e | e
    · rw [e, h]
    · rw [e]; rfl
  · rw [discardStaging_taking h, h]

theorem dropAll_taking {s : State} (h : s.hcc.isTaking = true) :
    dropAll s = { s with hcc := { s.hcc with dropHeld := true } } := by
  unfold dropAll
  cases ht : s.hcc.transfer <;> simp [Hcc.isTaking, ht] at h ⊢

/-- DROP-ALL outside a TAKE (R111). -/
theorem dropAll_hcc {s : State} (h : s.hcc.isTaking = false) : ∃ (e : Vector Nat 96) (r : List Nat),
    (dropAll s).hcc = { s.hcc with
      transfer := .idle, latched := .closed, lastStrobe := some .drop, echoErrors := e, refreshClear := r } ∧
    (s.hcc.transfer ≠ .refreshing → e = s.hcc.echoErrors ∧ r = s.hcc.refreshClear) := by
  unfold dropAll
  cases ht : s.hcc.transfer <;> simp [Hcc.isTaking, ht] at h ⊢ <;>
    simp [endRefresh, ht] <;> exact ⟨_, _, rfl⟩

/-- The abandonment of a bus activity outside a TAKE (R107, R115). -/
theorem abandonTransfer_hcc {s : State} (h : s.hcc.isTaking = false) : ∃ (e : Vector Nat 96) (r : List Nat),
    (abandonTransfer s).hcc = { s.hcc with transfer := .idle, echoErrors := e, refreshClear := r } ∧
    (s.hcc.transfer ≠ .refreshing → e = s.hcc.echoErrors ∧ r = s.hcc.refreshClear) := by
  unfold abandonTransfer
  cases ht : s.hcc.transfer <;> simp [Hcc.isTaking, ht] at h ⊢ <;> first
    | exact ⟨s.hcc.echoErrors, s.hcc.refreshClear, by rw [← ht], rfl, rfl⟩
    | rw [← ht]
    | exact ⟨_, _, rfl⟩

theorem abandonTransfer_taking {s : State} (h : s.hcc.isTaking = true) : abandonTransfer s = s := by
  unfold abandonTransfer
  cases ht : s.hcc.transfer <;> simp [Hcc.isTaking, ht] at h ⊢

/-! ### The fields of a guard entry -/

/-- R164 steps 3 and 4 at the weft unit: window, capture and report are gone, the plan is withheld; groups may be handed
back. -/
theorem guardEntry_wft (t : Trigger) (s : State) : ∃ g : Vector Group 8, (guardEntry t s).wft =
    { s.wft with window := none, capture := none, report := none, withheld := true, groups := g } := by
  obtain ⟨g, hg⟩ := discardStaging_wft (interruptWindow (recordEntry t s))
  exact ⟨g, by
    simp only [guardEntry, entryNotices_wft, seqIntoGuard_wft, shedHooks_wft, hg]; rfl⟩

@[simp] theorem interruptWindow_isTaking (s : State) : (interruptWindow s).hcc = s.hcc := rfl

/-- R164 step 4: outside a TAKE the buffer is EMPTY; during one it is as before (R110). -/
theorem guardEntry_xpe {t : Trigger} {s : State} (h : s.hcc.isTaking = false) : (guardEntry t s).xpe = ⟨none, .empty⟩ := by
  simp only [guardEntry, entryNotices_xpe, seqIntoGuard_xpe, shedHooks_xpe]
  exact discardStaging_xpe h

/-- R165, HOLD: the latched-image record stays; outside a TAKE the bus is IDLE. -/
theorem guardEntry_hold {t : Trigger} {s : State} (hs : s.grd.shed = .hold) (h : s.hcc.isTaking = false) :
    ∃ (e : Vector Nat 96) (r : List Nat),
      (guardEntry t s).hcc = { s.hcc with transfer := .idle, echoErrors := e, refreshClear := r } ∧
      (s.hcc.transfer ≠ .refreshing → e = s.hcc.echoErrors ∧ r = s.hcc.refreshClear) := by
  have hsh : (discardStaging (interruptWindow (recordEntry t s))).grd.shed = .hold := by simpa [recordEntry] using hs
  have ht : (discardStaging (interruptWindow (recordEntry t s))).hcc.isTaking = false := by
    rw [discardStaging_isTaking]; exact h
  obtain ⟨e, r, h1, h2⟩ := abandonTransfer_hcc ht
  simp only [guardEntry, entryNotices_hcc, seqIntoGuard_hcc, shedHooks, hsh]
  rcases discardStaging_hcc (interruptWindow (recordEntry t s)) with d | d
  · rw [d] at h1 h2; exact ⟨e, r, h1, h2⟩
  · rw [d] at h1 h2; exact ⟨e, r, h1, fun _ => h2 (by simp)⟩

/-- R165, CLOSE: outside a TAKE every latch falls. -/
theorem guardEntry_close {t : Trigger} {s : State} (hs : s.grd.shed = .close) (h : s.hcc.isTaking = false) :
    ∃ (e : Vector Nat 96) (r : List Nat),
      (guardEntry t s).hcc = { s.hcc with
        transfer := .idle, latched := .closed, lastStrobe := some .drop, echoErrors := e, refreshClear := r } ∧
      (s.hcc.transfer ≠ .refreshing → e = s.hcc.echoErrors ∧ r = s.hcc.refreshClear) := by
  have hsh : (discardStaging (interruptWindow (recordEntry t s))).grd.shed = .close := by simpa [recordEntry] using hs
  have ht : (discardStaging (interruptWindow (recordEntry t s))).hcc.isTaking = false := by
    rw [discardStaging_isTaking]; exact h
  obtain ⟨e, r, h1, h2⟩ := dropAll_hcc ht
  simp only [guardEntry, entryNotices_hcc, seqIntoGuard_hcc, shedHooks, hsh]
  rcases discardStaging_hcc (interruptWindow (recordEntry t s)) with d | d
  · rw [d] at h1 h2; exact ⟨e, r, h1, h2⟩
  · rw [d] at h1 h2; exact ⟨e, r, h1, fun _ => h2 (by simp)⟩

/-- R110: a guard entry during a TAKE leaves the TAKE; under CLOSE the DROP-ALL is held. -/
theorem guardEntry_taking {t : Trigger} {s : State} (h : s.hcc.isTaking = true) :
    (guardEntry t s).xpe = s.xpe ∧
    (guardEntry t s).hcc = if s.grd.shed = .close then { s.hcc with dropHeld := true } else s.hcc := by
  have hd : discardStaging (interruptWindow (recordEntry t s)) = interruptWindow (recordEntry t s) :=
    discardStaging_taking h
  have hg : (interruptWindow (recordEntry t s)).grd.shed = s.grd.shed := rfl
  constructor
  · simp [guardEntry, hd]
  · simp only [guardEntry, entryNotices_hcc, seqIntoGuard_hcc, hd, shedHooks, hg]
    cases s.grd.shed
    · rw [abandonTransfer_taking (by exact h)]; rfl
    · rw [dropAll_taking (by exact h)]; rfl

/-! ### A trigger by the state it is taken in (R161) -/

theorem trigger_unloaded {t : Trigger} {s : State} (h : s.seq.state = .unloaded) : trigger t s = countTrigger t s := by
  simp [trigger, h]

theorem trigger_disabled {t : Trigger} {s : State} (h : s.seq.state ≠ .unloaded) (he : s.grd.isEnabled t = false) :
    trigger t s = raiseIgnored t (countTrigger t s) := by
  have he' : (countTrigger t s).grd.isEnabled t = false := he
  simp only [trigger, countTrigger_seq, he']
  cases hs : s.seq.state <;> first | rfl | exact absurd hs h

theorem trigger_inGuard {t : Trigger} {s : State} (h : s.seq.state = .guard ∨ s.seq.state = .halted)
    (he : s.grd.isEnabled t = true) : trigger t s = addCause t (countTrigger t s) := by
  have he' : (countTrigger t s).grd.isEnabled t = true := he
  rcases h with h | h <;> simp [trigger, h, he']

theorem trigger_enters {t : Trigger} {s : State} (h : s.seq.state.guarded) (he : s.grd.isEnabled t = true) :
    trigger t s = guardEntry t (countTrigger t s) := by
  have he' : (countTrigger t s).grd.isEnabled t = true := he
  rcases h with h | h | h | h | h <;> simp [trigger, h, he']

/-- The four cases of a trigger. -/
theorem trigger_cases (t : Trigger) (s : State) :
    (s.seq.state = .unloaded ∧ trigger t s = countTrigger t s) ∨
    (s.seq.state ≠ .unloaded ∧ s.grd.isEnabled t = false ∧ trigger t s = raiseIgnored t (countTrigger t s)) ∨
    ((s.seq.state = .guard ∨ s.seq.state = .halted) ∧ s.grd.isEnabled t = true ∧
      trigger t s = addCause t (countTrigger t s)) ∨
    (s.seq.state.guarded ∧ s.grd.isEnabled t = true ∧ trigger t s = guardEntry t (countTrigger t s)) := by
  by_cases h : s.seq.state = .unloaded
  · exact .inl ⟨h, trigger_unloaded h⟩
  · cases he : s.grd.isEnabled t
    · exact .inr (.inl ⟨h, rfl, trigger_disabled h he⟩)
    · by_cases hg : s.seq.state = .guard ∨ s.seq.state = .halted
      · exact .inr (.inr (.inl ⟨hg, rfl, trigger_inGuard hg he⟩))
      · have hg' : s.seq.state.guarded := by
          unfold SeqState.guarded
          revert h hg; cases s.seq.state <;> simp
        exact .inr (.inr (.inr ⟨hg', rfl, trigger_enters hg' he⟩))

@[simp] theorem trigger_wlb (t : Trigger) (s : State) : (trigger t s).wlb = s.wlb := by
  rcases trigger_cases t s with ⟨_, e⟩ | ⟨_, _, e⟩ | ⟨_, _, e⟩ | ⟨_, _, e⟩ <;> rw [e] <;> simp [addCause]
@[simp] theorem trigger_hmp (t : Trigger) (s : State) : (trigger t s).hmp = s.hmp := by
  rcases trigger_cases t s with ⟨_, e⟩ | ⟨_, _, e⟩ | ⟨_, _, e⟩ | ⟨_, _, e⟩ <;> rw [e] <;> simp [addCause]
@[simp] theorem trigger_chu (t : Trigger) (s : State) : (trigger t s).chu = s.chu := by
  rcases trigger_cases t s with ⟨_, e⟩ | ⟨_, _, e⟩ | ⟨_, _, e⟩ | ⟨_, _, e⟩ <;> rw [e] <;> simp [addCause]
@[simp] theorem trigger_draws (t : Trigger) (s : State) : (trigger t s).draws = s.draws := by
  rcases trigger_cases t s with ⟨_, e⟩ | ⟨_, _, e⟩ | ⟨_, _, e⟩ | ⟨_, _, e⟩ <;> rw [e] <;> simp [addCause]
@[simp] theorem trigger_pending (t : Trigger) (s : State) : (trigger t s).pending = s.pending := by
  rcases trigger_cases t s with ⟨_, e⟩ | ⟨_, _, e⟩ | ⟨_, _, e⟩ | ⟨_, _, e⟩ <;> rw [e] <;> simp [addCause]
@[simp] theorem trigger_seq_cursor (t : Trigger) (s : State) : (trigger t s).seq.cursor = s.seq.cursor := by
  rcases trigger_cases t s with ⟨_, e⟩ | ⟨_, _, e⟩ | ⟨_, _, e⟩ | ⟨_, _, e⟩ <;> rw [e] <;> simp [addCause]
@[simp] theorem trigger_seq_serial (t : Trigger) (s : State) : (trigger t s).seq.serial = s.seq.serial := by
  rcases trigger_cases t s with ⟨_, e⟩ | ⟨_, _, e⟩ | ⟨_, _, e⟩ | ⟨_, _, e⟩ <;> rw [e] <;> simp [addCause]
@[simp] theorem trigger_seq_history (t : Trigger) (s : State) : (trigger t s).seq.history = s.seq.history := by
  rcases trigger_cases t s with ⟨_, e⟩ | ⟨_, _, e⟩ | ⟨_, _, e⟩ | ⟨_, _, e⟩ <;> rw [e] <;> simp [addCause]
@[simp] theorem trigger_seq_woven (t : Trigger) (s : State) : (trigger t s).seq.woven = s.seq.woven := by
  rcases trigger_cases t s with ⟨_, e⟩ | ⟨_, _, e⟩ | ⟨_, _, e⟩ | ⟨_, _, e⟩ <;> rw [e] <;> simp [addCause]
@[simp] theorem trigger_seq_runDown (t : Trigger) (s : State) : (trigger t s).seq.runDown = s.seq.runDown := by
  rcases trigger_cases t s with ⟨_, e⟩ | ⟨_, _, e⟩ | ⟨_, _, e⟩ | ⟨_, _, e⟩ <;> rw [e] <;> simp [addCause]
@[simp] theorem trigger_grd_enabled (t : Trigger) (s : State) : (trigger t s).grd.enabled = s.grd.enabled := by
  rcases trigger_cases t s with ⟨_, e⟩ | ⟨_, _, e⟩ | ⟨_, _, e⟩ | ⟨_, _, e⟩ <;> rw [e] <;> first
    | rfl
    | (rw [guardEntry_grd]; rfl)
@[simp] theorem trigger_grd_counts (t : Trigger) (s : State) : (trigger t s).grd.counts = s.grd.counts := by
  rcases trigger_cases t s with ⟨_, e⟩ | ⟨_, _, e⟩ | ⟨_, _, e⟩ | ⟨_, _, e⟩ <;> rw [e] <;> first
    | rfl
    | (rw [guardEntry_grd]; rfl)
@[simp] theorem trigger_grd_shed (t : Trigger) (s : State) : (trigger t s).grd.shed = s.grd.shed := by
  rcases trigger_cases t s with ⟨_, e⟩ | ⟨_, _, e⟩ | ⟨_, _, e⟩ | ⟨_, _, e⟩ <;> rw [e] <;> first
    | rfl
    | (rw [guardEntry_grd]; rfl)
@[simp] theorem trigger_grd_limit (t : Trigger) (s : State) : (trigger t s).grd.limit = s.grd.limit := by
  rcases trigger_cases t s with ⟨_, e⟩ | ⟨_, _, e⟩ | ⟨_, _, e⟩ | ⟨_, _, e⟩ <;> rw [e] <;> first
    | rfl
    | (rw [guardEntry_grd]; rfl)
@[simp] theorem trigger_grd_autoClear (t : Trigger) (s : State) : (trigger t s).grd.autoClear = s.grd.autoClear := by
  rcases trigger_cases t s with ⟨_, e⟩ | ⟨_, _, e⟩ | ⟨_, _, e⟩ | ⟨_, _, e⟩ <;> rw [e] <;> first
    | rfl
    | (rw [guardEntry_grd]; rfl)
@[simp] theorem trigger_grd_rawWarp (t : Trigger) (s : State) : (trigger t s).grd.rawWarp = s.grd.rawWarp := by
  rcases trigger_cases t s with ⟨_, e⟩ | ⟨_, _, e⟩ | ⟨_, _, e⟩ | ⟨_, _, e⟩ <;> rw [e] <;> first
    | rfl
    | (rw [guardEntry_grd]; rfl)
@[simp] theorem trigger_grd_warp (t : Trigger) (s : State) : (trigger t s).grd.warp = s.grd.warp := by
  rcases trigger_cases t s with ⟨_, e⟩ | ⟨_, _, e⟩ | ⟨_, _, e⟩ | ⟨_, _, e⟩ <;> rw [e] <;> first
    | rfl
    | (rw [guardEntry_grd]; rfl)
@[simp] theorem trigger_grd_filterTimer (t : Trigger) (s : State) : (trigger t s).grd.filterTimer = s.grd.filterTimer := by
  rcases trigger_cases t s with ⟨_, e⟩ | ⟨_, _, e⟩ | ⟨_, _, e⟩ | ⟨_, _, e⟩ <;> rw [e] <;> first
    | rfl
    | (rw [guardEntry_grd]; rfl)
@[simp] theorem trigger_grd_filterTime (t : Trigger) (s : State) : (trigger t s).grd.filterTime = s.grd.filterTime := by
  rcases trigger_cases t s with ⟨_, e⟩ | ⟨_, _, e⟩ | ⟨_, _, e⟩ | ⟨_, _, e⟩ <;> rw [e] <;> first
    | rfl
    | (rw [guardEntry_grd]; rfl)
@[simp] theorem trigger_grd_moduleLevel (t : Trigger) (s : State) : (trigger t s).grd.moduleLevel = s.grd.moduleLevel := by
  rcases trigger_cases t s with ⟨_, e⟩ | ⟨_, _, e⟩ | ⟨_, _, e⟩ | ⟨_, _, e⟩ <;> rw [e] <;> first
    | rfl
    | (rw [guardEntry_grd]; rfl)
@[simp] theorem trigger_wft_feeders (t : Trigger) (s : State) : (trigger t s).wft.feeders = s.wft.feeders := by
  rcases trigger_cases t s with ⟨_, e⟩ | ⟨_, _, e⟩ | ⟨_, _, e⟩ | ⟨_, _, e⟩ <;> rw [e] <;> first
    | rfl
    | (obtain ⟨g, hg⟩ := guardEntry_wft t (countTrigger t s); rw [hg]; rfl)
@[simp] theorem trigger_wft_limit (t : Trigger) (s : State) : (trigger t s).wft.limit = s.wft.limit := by
  rcases trigger_cases t s with ⟨_, e⟩ | ⟨_, _, e⟩ | ⟨_, _, e⟩ | ⟨_, _, e⟩ <;> rw [e] <;> first
    | rfl
    | (obtain ⟨g, hg⟩ := guardEntry_wft t (countTrigger t s); rw [hg]; rfl)
@[simp] theorem trigger_wft_verdict (t : Trigger) (s : State) : (trigger t s).wft.verdict = s.wft.verdict := by
  rcases trigger_cases t s with ⟨_, e⟩ | ⟨_, _, e⟩ | ⟨_, _, e⟩ | ⟨_, _, e⟩ <;> rw [e] <;> first
    | rfl
    | (obtain ⟨g, hg⟩ := guardEntry_wft t (countTrigger t s); rw [hg]; rfl)
@[simp] theorem trigger_wft_extra (t : Trigger) (s : State) : (trigger t s).wft.extra = s.wft.extra := by
  rcases trigger_cases t s with ⟨_, e⟩ | ⟨_, _, e⟩ | ⟨_, _, e⟩ | ⟨_, _, e⟩ <;> rw [e] <;> first
    | rfl
    | (obtain ⟨g, hg⟩ := guardEntry_wft t (countTrigger t s); rw [hg]; rfl)
@[simp] theorem trigger_wft_stray (t : Trigger) (s : State) : (trigger t s).wft.stray = s.wft.stray := by
  rcases trigger_cases t s with ⟨_, e⟩ | ⟨_, _, e⟩ | ⟨_, _, e⟩ | ⟨_, _, e⟩ <;> rw [e] <;> first
    | rfl
    | (obtain ⟨g, hg⟩ := guardEntry_wft t (countTrigger t s); rw [hg]; rfl)

/-- The occurrence totals after a trigger (R160). -/
theorem trigger_totals (t : Trigger) (s : State) :
    (trigger t s).grd.totals = upd s.grd.totals t.idx (raiseTo 65535 (s.grd.totals.get t.idx)) := by
  rcases trigger_cases t s with ⟨_, e⟩ | ⟨_, _, e⟩ | ⟨_, _, e⟩ | ⟨_, _, e⟩ <;> rw [e] <;> simp [addCause, countTrigger]

/-- A trigger starts and ends no TAKE. -/
@[simp] theorem trigger_isTaking (t : Trigger) (s : State) : (trigger t s).hcc.isTaking = s.hcc.isTaking := by
  rcases trigger_cases t s with ⟨_, e⟩ | ⟨_, _, e⟩ | ⟨_, _, e⟩ | ⟨_, _, e⟩ <;> rw [e] <;> try rfl
  cases h : s.hcc.isTaking
  · cases hs : s.grd.shed
    · obtain ⟨_, _, h1, _⟩ := guardEntry_hold (t := t) (s := countTrigger t s) hs h
      rw [h1]; rfl
    · obtain ⟨_, _, h1, _⟩ := guardEntry_close (t := t) (s := countTrigger t s) hs h
      rw [h1]; rfl
  · rw [(guardEntry_taking (t := t) (s := countTrigger t s) h).2]
    split <;> exact h

/-- A trigger leaves the units that a guard entry leaves, the owner map and the free count. -/
theorem guardEntry_store (t : Trigger) (s : State) :
    (guardEntry t s).fst.owner = s.fst.owner ∧ (guardEntry t s).fst.free = s.fst.free := by
  have hr : ∀ (l : Latched) (s : State), (releaseLatched l s).fst.owner = s.fst.owner ∧
      (releaseLatched l s).fst.free = s.fst.free := by
    intro l s; unfold releaseLatched; split <;> exact ⟨rfl, rfl⟩
  have hd : ∀ s : State, (discardStaging s).fst.owner = s.fst.owner ∧ (discardStaging s).fst.free = s.fst.free := by
    intro s; unfold discardStaging; split <;> (try split) <;> exact ⟨rfl, rfl⟩
  have hs : ∀ s : State, (shedHooks s).fst.owner = s.fst.owner ∧ (shedHooks s).fst.free = s.fst.free := by
    intro s; unfold shedHooks; split
    · simp
    · unfold dropAll; split
      · exact ⟨rfl, rfl⟩
      · obtain ⟨h1, h2⟩ := hr (endRefresh s).hcc.latched { endRefresh s with hcc := { (endRefresh s).hcc with
          transfer := .idle, latched := .closed, lastStrobe := some .drop } }
        exact ⟨h1.trans (by simp), h2.trans (by simp)⟩
  obtain ⟨h1, h2⟩ := hs (discardStaging (interruptWindow (recordEntry t s)))
  obtain ⟨h3, h4⟩ := hd (interruptWindow (recordEntry t s))
  simp only [guardEntry, entryNotices_fst, seqIntoGuard_fst]
  exact ⟨h1.trans h3, h2.trans h4⟩

end Sys2Proof.Machine
end

