-- ==== Sys2Proof/Laws/Requests.lean ====
section
/-! SUPPORT. What a request does to its link: taken, answered, refused, dropped. A command that is a request is `request`
of its owner; these lemmas say once what comes of it, so that a proof about a command looks at the owner alone. -/

namespace Sys2Proof.Machine

/-! ### The states of a request leave every unit -/

@[simp] theorem awaited_ang (s : State) (l : LinkId) (r : Request) : (s.awaited l r).ang = s.ang := by cases l <;> rfl
@[simp] theorem awaited_fst (s : State) (l : LinkId) (r : Request) : (s.awaited l r).fst = s.fst := by cases l <;> rfl
@[simp] theorem awaited_wlb (s : State) (l : LinkId) (r : Request) : (s.awaited l r).wlb = s.wlb := by cases l <;> rfl
@[simp] theorem awaited_hmp (s : State) (l : LinkId) (r : Request) : (s.awaited l r).hmp = s.hmp := by cases l <;> rfl
@[simp] theorem awaited_xpe (s : State) (l : LinkId) (r : Request) : (s.awaited l r).xpe = s.xpe := by cases l <;> rfl
@[simp] theorem awaited_seq (s : State) (l : LinkId) (r : Request) : (s.awaited l r).seq = s.seq := by cases l <;> rfl
@[simp] theorem awaited_chu (s : State) (l : LinkId) (r : Request) : (s.awaited l r).chu = s.chu := by cases l <;> rfl
@[simp] theorem awaited_wft (s : State) (l : LinkId) (r : Request) : (s.awaited l r).wft = s.wft := by cases l <;> rfl
@[simp] theorem awaited_hcc (s : State) (l : LinkId) (r : Request) : (s.awaited l r).hcc = s.hcc := by cases l <;> rfl
@[simp] theorem awaited_grd (s : State) (l : LinkId) (r : Request) : (s.awaited l r).grd = s.grd := by cases l <;> rfl
@[simp] theorem awaited_draws (s : State) (l : LinkId) (r : Request) : (s.awaited l r).draws = s.draws := by cases l <;> rfl
@[simp] theorem awaited_pending (s : State) (l : LinkId) (r : Request) : (s.awaited l r).pending = s.pending := by cases l <;> rfl

@[simp] theorem responded_ang (s : State) (l : LinkId) (r : Request) (st : Status) (p : List Byte) : (s.responded l r st p).ang = s.ang := by cases l <;> rfl
@[simp] theorem responded_fst (s : State) (l : LinkId) (r : Request) (st : Status) (p : List Byte) : (s.responded l r st p).fst = s.fst := by cases l <;> rfl
@[simp] theorem responded_wlb (s : State) (l : LinkId) (r : Request) (st : Status) (p : List Byte) : (s.responded l r st p).wlb = s.wlb := by cases l <;> rfl
@[simp] theorem responded_hmp (s : State) (l : LinkId) (r : Request) (st : Status) (p : List Byte) : (s.responded l r st p).hmp = s.hmp := by cases l <;> rfl
@[simp] theorem responded_xpe (s : State) (l : LinkId) (r : Request) (st : Status) (p : List Byte) : (s.responded l r st p).xpe = s.xpe := by cases l <;> rfl
@[simp] theorem responded_seq (s : State) (l : LinkId) (r : Request) (st : Status) (p : List Byte) : (s.responded l r st p).seq = s.seq := by cases l <;> rfl
@[simp] theorem responded_chu (s : State) (l : LinkId) (r : Request) (st : Status) (p : List Byte) : (s.responded l r st p).chu = s.chu := by cases l <;> rfl
@[simp] theorem responded_wft (s : State) (l : LinkId) (r : Request) (st : Status) (p : List Byte) : (s.responded l r st p).wft = s.wft := by cases l <;> rfl
@[simp] theorem responded_hcc (s : State) (l : LinkId) (r : Request) (st : Status) (p : List Byte) : (s.responded l r st p).hcc = s.hcc := by cases l <;> rfl
@[simp] theorem responded_grd (s : State) (l : LinkId) (r : Request) (st : Status) (p : List Byte) : (s.responded l r st p).grd = s.grd := by cases l <;> rfl
@[simp] theorem responded_draws (s : State) (l : LinkId) (r : Request) (st : Status) (p : List Byte) : (s.responded l r st p).draws = s.draws := by cases l <;> rfl
@[simp] theorem responded_pending (s : State) (l : LinkId) (r : Request) (st : Status) (p : List Byte) : (s.responded l r st p).pending = s.pending := by cases l <;> rfl

@[simp] theorem answeredLate_ang (s : State) (l : LinkId) (st : Status) (p : List Byte) : (s.answeredLate l st p).ang = s.ang := by cases l <;> rfl
@[simp] theorem answeredLate_fst (s : State) (l : LinkId) (st : Status) (p : List Byte) : (s.answeredLate l st p).fst = s.fst := by cases l <;> rfl
@[simp] theorem answeredLate_wlb (s : State) (l : LinkId) (st : Status) (p : List Byte) : (s.answeredLate l st p).wlb = s.wlb := by cases l <;> rfl
@[simp] theorem answeredLate_hmp (s : State) (l : LinkId) (st : Status) (p : List Byte) : (s.answeredLate l st p).hmp = s.hmp := by cases l <;> rfl
@[simp] theorem answeredLate_xpe (s : State) (l : LinkId) (st : Status) (p : List Byte) : (s.answeredLate l st p).xpe = s.xpe := by cases l <;> rfl
@[simp] theorem answeredLate_seq (s : State) (l : LinkId) (st : Status) (p : List Byte) : (s.answeredLate l st p).seq = s.seq := by cases l <;> rfl
@[simp] theorem answeredLate_chu (s : State) (l : LinkId) (st : Status) (p : List Byte) : (s.answeredLate l st p).chu = s.chu := by cases l <;> rfl
@[simp] theorem answeredLate_wft (s : State) (l : LinkId) (st : Status) (p : List Byte) : (s.answeredLate l st p).wft = s.wft := by cases l <;> rfl
@[simp] theorem answeredLate_hcc (s : State) (l : LinkId) (st : Status) (p : List Byte) : (s.answeredLate l st p).hcc = s.hcc := by cases l <;> rfl
@[simp] theorem answeredLate_grd (s : State) (l : LinkId) (st : Status) (p : List Byte) : (s.answeredLate l st p).grd = s.grd := by cases l <;> rfl
@[simp] theorem answeredLate_draws (s : State) (l : LinkId) (st : Status) (p : List Byte) : (s.answeredLate l st p).draws = s.draws := by cases l <;> rfl
@[simp] theorem answeredLate_pending (s : State) (l : LinkId) (st : Status) (p : List Byte) : (s.answeredLate l st p).pending = s.pending := by cases l <;> rfl

@[simp] theorem refusedFrame_ang (s : State) (l : LinkId) (c : Byte) (st : Status) : (s.refusedFrame l c st).ang = s.ang := by cases l <;> rfl
@[simp] theorem refusedFrame_fst (s : State) (l : LinkId) (c : Byte) (st : Status) : (s.refusedFrame l c st).fst = s.fst := by cases l <;> rfl
@[simp] theorem refusedFrame_wlb (s : State) (l : LinkId) (c : Byte) (st : Status) : (s.refusedFrame l c st).wlb = s.wlb := by cases l <;> rfl
@[simp] theorem refusedFrame_hmp (s : State) (l : LinkId) (c : Byte) (st : Status) : (s.refusedFrame l c st).hmp = s.hmp := by cases l <;> rfl
@[simp] theorem refusedFrame_xpe (s : State) (l : LinkId) (c : Byte) (st : Status) : (s.refusedFrame l c st).xpe = s.xpe := by cases l <;> rfl
@[simp] theorem refusedFrame_seq (s : State) (l : LinkId) (c : Byte) (st : Status) : (s.refusedFrame l c st).seq = s.seq := by cases l <;> rfl
@[simp] theorem refusedFrame_chu (s : State) (l : LinkId) (c : Byte) (st : Status) : (s.refusedFrame l c st).chu = s.chu := by cases l <;> rfl
@[simp] theorem refusedFrame_wft (s : State) (l : LinkId) (c : Byte) (st : Status) : (s.refusedFrame l c st).wft = s.wft := by cases l <;> rfl
@[simp] theorem refusedFrame_hcc (s : State) (l : LinkId) (c : Byte) (st : Status) : (s.refusedFrame l c st).hcc = s.hcc := by cases l <;> rfl
@[simp] theorem refusedFrame_grd (s : State) (l : LinkId) (c : Byte) (st : Status) : (s.refusedFrame l c st).grd = s.grd := by cases l <;> rfl
@[simp] theorem refusedFrame_draws (s : State) (l : LinkId) (c : Byte) (st : Status) : (s.refusedFrame l c st).draws = s.draws := by cases l <;> rfl
@[simp] theorem refusedFrame_pending (s : State) (l : LinkId) (c : Byte) (st : Status) : (s.refusedFrame l c st).pending = s.pending := by cases l <;> rfl

@[simp] theorem responded_response (s : State) (l : LinkId) (r : Request) (st : Status) (p : List Byte) :
    ((s.responded l r st p).link l).response = some ⟨st, p⟩ := by simp [State.responded]

/-! ### Taking a request -/

theorem isOpen_iff (k : Link) : k.isOpen = true ↔ k.rx ≠ .discarding ∧ k.outstanding = none ∧ k.suppressed = false := by
  simp [Link.isOpen, and_assoc]

/-- An open link takes the request. -/
theorem request_of_open {l : LinkId} {s : State} (h : (s.link l).isOpen = true) (r : Request) (check : EncodingCheck)
    (owner : State → State × Reply) :
    request l r check owner s = serve l r check owner (s.awaited l r) := by
  obtain ⟨h1, h2, _⟩ := (isOpen_iff _).1 h
  unfold request
  rw [h2]
  cases hrx : (s.link l).rx <;> first | rfl | exact absurd hrx h1

/-- A link that follows an overlapping frame drops the frame. -/
theorem request_discarding {l : LinkId} {s : State} (h : (s.link l).rx = .discarding) (r : Request) (check : EncodingCheck)
    (owner : State → State × Reply) : request l r check owner s = s.modLink l Link.endFrame := by
  simp [request, h]

/-- A link with an outstanding request counts the frame and drops it. -/
theorem request_busy {l : LinkId} {s : State} (h : (s.link l).rx = .hunting) (h' : (s.link l).outstanding ≠ none)
    (r : Request) (check : EncodingCheck) (owner : State → State × Reply) :
    request l r check owner s = s.modLink l Link.countError := by
  unfold request
  rw [h]
  cases ho : (s.link l).outstanding <;> first | rfl | exact absurd ho h'

/-- The answer to a request that has been taken. -/
theorem answer_awaited {l : LinkId} {s : State} (h : (s.link l).suppressed = false) (r : Request) (st : Status)
    (p : List Byte) : answer l ⟨st, p⟩ (s.awaited l r) = s.responded l r st p := by
  have e : (s.awaited l r).modLink l (Link.answer ⟨st, p⟩) =
      s.modLink l fun k => Link.answer ⟨st, p⟩ (Link.take r.code k) := modLink_modLink ..
  show (s.awaited l r).modLink l _ = _
  rw [e]
  apply modLink_congr
  simp [Link.answer, Link.take, h]

/-- The owner answers at once with the state `u`. -/
theorem request_answers {l : LinkId} {s u : State} {r : Request} {owner : State → State × Reply} {st : Status}
    {p : List Byte} (h : (s.link l).isOpen = true) (hl : r.onLink l = true)
    (ho : owner (s.awaited l r) = (u.awaited l r, .now ⟨st, p⟩)) (hu : (u.link l).suppressed = false) :
    request l r .good owner s = u.responded l r st p := by
  rw [request_of_open h]
  simp only [serve, hl, if_true, ho]
  exact answer_awaited hu r st p

/-- The owner refuses. -/
theorem request_refuses {l : LinkId} {s : State} {r : Request} {owner : State → State × Reply} {st : Status}
    (h : (s.link l).isOpen = true) (hl : r.onLink l = true)
    (ho : owner (s.awaited l r) = refuse (s.awaited l r) st) : request l r .good owner s = s.responded l r st [] :=
  request_answers h hl ho ((isOpen_iff _).1 h).2.2

/-- The owner answers later. -/
theorem request_waits {l : LinkId} {s u : State} {r : Request} {owner : State → State × Reply}
    (h : (s.link l).isOpen = true) (hl : r.onLink l = true) (ho : owner (s.awaited l r) = (u, .later)) :
    request l r .good owner s = u := by
  rw [request_of_open h]
  simp only [serve, hl, if_true, ho]

/-- The link itself refuses an encoding fault. -/
theorem request_badArgument {l : LinkId} {s : State} {r : Request} (owner : State → State × Reply)
    (h : (s.link l).isOpen = true) (hl : r.onLink l = true) :
    request l r .badArgument owner s = s.responded l r .badArgument [] := by
  rw [request_of_open h]
  simp only [serve, hl, if_true]
  exact answer_awaited ((isOpen_iff _).1 h).2.2 r _ _

/-- The link itself refuses a wrong length, and counts it. -/
theorem request_frameError {l : LinkId} {s : State} {r : Request} (owner : State → State × Reply)
    (h : (s.link l).isOpen = true) (hl : r.onLink l = true) :
    request l r .frameError owner s = (s.modLink l Link.countError).responded l r .frameError [] := by
  rw [request_of_open h]
  simp only [serve, hl, if_true, answerFrameError]
  have e : (s.awaited l r).modLink l Link.countError = (s.modLink l Link.countError).awaited l r := by
    simp [State.awaited, Link.countError]
  rw [e]
  exact answer_awaited (by simpa [Link.countError] using ((isOpen_iff _).1 h).2.2) r _ _

/-- A request the link does not carry. -/
theorem request_unknown {l : LinkId} {s : State} {r : Request} (check : EncodingCheck) (owner : State → State × Reply)
    (h : (s.link l).isOpen = true) (hl : r.onLink l = false) :
    request l r check owner s = s.responded l r .unknownRequest [] := by
  rw [request_of_open h]
  simp only [serve, hl]
  exact answer_awaited ((isOpen_iff _).1 h).2.2 r _ _

end Sys2Proof.Machine
end

