-- ==== Sys2Proof/Laws/Planning.lean ====
section
/-! SUPPORT. What planning leaves: a trigger, a re-plan, a fill and a change of a feeder move the plans, the groups, the
sequencer's state and the guard, and keep everything that `Kept` lists. -/

namespace Sys2Proof.Machine

/-- What a notice or an early answer leaves of a link: its receiver, its mask, the kinds in its set, and, unless the response
is suppressed, the request that is outstanding. -/
structure Link.kept (a b : Link) : Prop where
  rx : b.rx = a.rx
  frame : b.frame = a.frame
  errors : b.errors = a.errors
  mask : b.mask = a.mask
  notices : ∀ n, n ∈ a.notices → n ∈ b.notices
  suppressed : a.suppressed = false → b.suppressed = false
  outstanding : a.suppressed = false → b.outstanding.map (·.code) = a.outstanding.map (·.code)
  idle : a.outstanding = none → b.outstanding = none ∧ b.response = a.response ∧ b.suppressed = a.suppressed

theorem Link.kept.refl (k : Link) : k.kept k := ⟨rfl, rfl, rfl, rfl, fun _ h => h, id, fun _ => rfl, fun h => ⟨h, rfl, rfl⟩⟩

theorem Link.kept.trans {a b c : Link} (h : a.kept b) (k : b.kept c) : a.kept c :=
  ⟨k.1.trans h.1, k.2.trans h.2, k.3.trans h.3, k.4.trans h.4, fun n x => k.5 n (h.5 n x), fun x => k.6 (h.6 x),
    fun x => (k.7 (h.6 x)).trans (h.7 x), fun x => ⟨(k.8 (h.8 x).1).1, (k.8 (h.8 x).1).2.1.trans (h.8 x).2.1,
      (k.8 (h.8 x).1).2.2.trans (h.8 x).2.2⟩⟩

theorem Link.kept_raise (n : NoticeKind) (k : Link) : k.kept (Link.raise n k) :=
  ⟨rfl, rfl, rfl, rfl, fun x h => (mem_raise n x k).2 (.inr h), id, fun _ => rfl, fun h => ⟨h, rfl, rfl⟩⟩

theorem Link.kept_answer (r : Response) (k : Link) : k.kept (Link.answer r k) := by
  unfold Link.answer
  split
  · exact Link.kept.refl k
  · rename_i o ho
    split
    · rename_i hs
      exact ⟨rfl, rfl, rfl, rfl, fun _ h => h, fun _ => rfl, fun h => by simp [h] at hs, fun h => by simp [ho] at h⟩
    · exact ⟨rfl, rfl, rfl, rfl, fun _ h => h, id, fun _ => by simp [ho], fun h => by simp [ho] at h⟩

/-- What no trigger, re-plan, fill, discard or notice touches, from `s` to `t`. -/
structure Kept (s t : State) : Prop where
  wlb : t.wlb = s.wlb
  hmp : t.hmp = s.hmp
  chu : t.chu = s.chu
  draws : t.draws = s.draws
  pending : t.pending = s.pending
  cursor : t.seq.cursor = s.seq.cursor
  serial : t.seq.serial = s.seq.serial
  history : t.seq.history = s.seq.history
  woven : t.seq.woven = s.seq.woven
  runDown : t.seq.runDown = s.seq.runDown
  feeders : t.wft.feeders = s.wft.feeders
  limit : t.wft.limit = s.wft.limit
  verdict : t.wft.verdict = s.wft.verdict
  extra : t.wft.extra = s.wft.extra
  stray : t.wft.stray = s.wft.stray
  shed : t.grd.shed = s.grd.shed
  enabled : t.grd.enabled = s.grd.enabled
  counts : t.grd.counts = s.grd.counts
  links : ∀ l, (s.link l).kept (t.link l)

theorem Kept.refl (s : State) : Kept s s :=
  ⟨rfl, rfl, rfl, rfl, rfl, rfl, rfl, rfl, rfl, rfl, rfl, rfl, rfl, rfl, rfl, rfl, rfl, rfl,
    fun _ => Link.kept.refl _⟩

theorem Kept.trans {s t u : State} (h : Kept s t) (k : Kept t u) : Kept s u :=
  ⟨k.1.trans h.1, k.2.trans h.2, k.3.trans h.3, k.4.trans h.4, k.5.trans h.5, k.6.trans h.6, k.7.trans h.7,
    k.8.trans h.8, k.9.trans h.9, k.10.trans h.10, k.11.trans h.11, k.12.trans h.12, k.13.trans h.13, k.14.trans h.14,
    k.15.trans h.15, k.16.trans h.16, k.17.trans h.17, k.18.trans h.18,
    fun l => (h.19 l).trans (k.19 l)⟩

theorem kept_ite {c : Prop} [Decidable c] {s a b : State} (ha : Kept s a) (hb : Kept s b) :
    Kept s (if c then a else b) := by split <;> assumption

theorem kept_modLink {l : LinkId} {f : Link → Link} (s : State) (h : (s.link l).kept (f (s.link l))) :
    Kept s (s.modLink l f) := by
  constructor <;> try simp
  intro m
  by_cases e : m = l
  · subst e; simpa using h
  · rw [link_modLink_ne s f e]; exact Link.kept.refl _

theorem kept_raise (l : LinkId) (n : NoticeKind) (s : State) : Kept s (raise l n s) :=
  kept_modLink s (Link.kept_raise n _)

theorem kept_answer (l : LinkId) (r : Response) (s : State) : Kept s (answer l r s) :=
  kept_modLink s (Link.kept_answer r _)

theorem kept_raiseIgnored (t : Trigger) (s : State) : Kept s (raiseIgnored t s) :=
  Kept.trans (kept_modLink s ⟨rfl, rfl, rfl, rfl, fun _ h => h, id, fun _ => rfl, fun h => ⟨h, rfl, rfl⟩⟩) (kept_raise ..)

theorem kept_abandonRefresh (s : State) : Kept s (abandonRefresh s) := by
  constructor <;> try (simp; done)
  intro l
  cases l with
  | p => exact Link.kept_answer ..
  | d => simp only [link_d, abandonRefresh_dlk]; exact Link.kept.refl _
  | w => simp only [link_w, abandonRefresh_wlk]; exact Link.kept.refl _

/-- An update of HCC, of XPE, of the store or of the tracker keeps what `Kept` lists. -/
theorem kept_units (s : State) (a : Ang) (f : Fst) (x : Xpe) (h : Hcc) : Kept s { s with ang := a, fst := f, xpe := x, hcc := h } :=
  ⟨rfl, rfl, rfl, rfl, rfl, rfl, rfl, rfl, rfl, rfl, rfl, rfl, rfl, rfl, rfl, rfl, rfl, rfl,
    fun _ => Link.kept.refl _⟩

theorem kept_endRefresh (s : State) : Kept s (endRefresh s) := by
  unfold endRefresh
  split
  · exact kept_abandonRefresh s
  · exact Kept.refl s

theorem kept_abandonTransfer (s : State) : Kept s (abandonTransfer s) := by
  unfold abandonTransfer
  split
  · exact Kept.refl s
  · exact Kept.refl s
  · exact kept_abandonRefresh s
  · exact kept_units s s.ang s.fst s.xpe _
  · exact kept_units s s.ang s.fst s.xpe _

theorem kept_releaseLatched (l : Latched) (s : State) : Kept s (releaseLatched l s) := by
  unfold releaseLatched; split
  · exact kept_units s s.ang _ s.xpe s.hcc
  · exact Kept.refl s

theorem kept_dropAll (s : State) : Kept s (dropAll s) := by
  unfold dropAll
  split
  · exact kept_units s s.ang s.fst s.xpe _
  · exact ((kept_endRefresh s).trans (kept_units _ (endRefresh s).ang (endRefresh s).fst (endRefresh s).xpe _)).trans
      (kept_releaseLatched ..)

theorem kept_discardStaging (s : State) : Kept s (discardStaging s) := by
  obtain ⟨g, hg⟩ := discardStaging_wft s
  refine ⟨by simp, by simp, by simp, by simp, by simp, by simp, by simp, by simp, by simp, by simp, ?_, ?_, ?_, ?_, ?_,
    by simp, by simp, by simp, ?_⟩ <;> try (rw [hg])
  intro l; cases l <;> simp <;> exact Link.kept.refl _

theorem kept_shedHooks (s : State) : Kept s (shedHooks s) := by
  unfold shedHooks; split
  · exact kept_abandonTransfer s
  · exact kept_dropAll s

theorem kept_departed (q : SeqState) (s : State) : Kept s (departed q s) := by
  unfold departed; split
  · exact kept_raise ..
  · exact Kept.refl s

theorem kept_guardEntry (t : Trigger) (s : State) : Kept s (guardEntry t s) := by
  have h1 : Kept s (interruptWindow (recordEntry t s)) :=
    ⟨rfl, rfl, rfl, rfl, rfl, rfl, rfl, rfl, rfl, rfl, rfl, rfl, rfl, rfl, rfl, rfl, rfl, rfl,
      fun _ => Link.kept.refl _⟩
  have h2 := (h1.trans (kept_discardStaging _)).trans (kept_shedHooks _)
  have h3 : ∀ (b : Bool) (u : State), Kept u (seqIntoGuard b u) := by
    intro b u
    refine Kept.trans ?_ (kept_departed ..)
    exact ⟨rfl, rfl, rfl, rfl, rfl, rfl, rfl, rfl, rfl, rfl, rfl, rfl, rfl, rfl, rfl, rfl, rfl, rfl,
      fun _ => Link.kept.refl _⟩
  have h4 : ∀ (b : Bool) (u : State), Kept u (entryNotices b u) := by
    intro b u
    cases b <;> exact Kept.trans (Kept.trans (Kept.trans (kept_raise ..) (kept_raise ..)) (kept_raise ..)) (kept_raise ..)
  exact (h2.trans (h3 _ _)).trans (h4 _ _)

theorem kept_trigger (t : Trigger) (s : State) : Kept s (trigger t s) := by
  have hc : Kept s (countTrigger t s) :=
    ⟨rfl, rfl, rfl, rfl, rfl, rfl, rfl, rfl, rfl, rfl, rfl, rfl, rfl, rfl, rfl, rfl, rfl, rfl,
      fun _ => Link.kept.refl _⟩
  rcases trigger_cases t s with ⟨_, e⟩ | ⟨_, _, e⟩ | ⟨_, _, e⟩ | ⟨_, _, e⟩ <;> rw [e]
  · exact hc
  · exact hc.trans (kept_raiseIgnored ..)
  · exact hc.trans ⟨rfl, rfl, rfl, rfl, rfl, rfl, rfl, rfl, rfl, rfl, rfl, rfl, rfl, rfl, rfl, rfl, rfl, rfl,
      fun _ => Link.kept.refl _⟩
  · exact hc.trans (kept_guardEntry ..)

theorem kept_triggerWhen (c : Bool) (t : Trigger) (s : State) : Kept s (triggerWhen c t s) := by
  unfold triggerWhen; split
  · exact kept_trigger t s
  · exact Kept.refl s

/-- The response of a request whose owner kept its link: whatever else the owner did, its answer is sent. -/
theorem response_kept {l : LinkId} {k : Link} {b t : State} {code : Byte} (r : Response) (hb : b.link l = Link.take code k)
    (hs : k.suppressed = false) (h : Kept b t) : ((answer l r t).link l).response = some r := by
  have h1 : (t.link l).suppressed = false := (h.links l).suppressed (by rw [hb]; exact hs)
  have h2 := (h.links l).outstanding (by rw [hb]; exact hs)
  rw [hb] at h2
  simp only [answer, link_modLink]
  cases hx : (t.link l).outstanding with
  | none => rw [hx] at h2; simp [Link.take] at h2
  | some o => simp [Link.answer, h1, hx]

/-! ### Choosing -/

/-- Planning moves at most one group's alternation state. -/
theorem choose_wft (w : Wft) (x : Weft) : ∃ g : Vector Group 8, (w.choose x).wft = { w with groups := g } := by
  cases x with
  | feeder f => exact ⟨w.groups, rfl⟩
  | colour g =>
    simp only [Wft.choose]
    split
    · exact ⟨w.groups, rfl⟩
    · split
      · split <;> exact ⟨_, rfl⟩
      all_goals exact ⟨w.groups, rfl⟩

/-- A feeder that is planned is READY (R84). -/
theorem choose_ready {w : Wft} {x : Weft} {f : Fin 8} (h : (w.choose x).feeder = some f) :
    (w.feeders.get f).state = .ready := by
  have key : ∀ o : Option (Fin 8), ∀ p, w.readyOf o = some p → (w.feeders.get p).state = .ready := by
    intro o p hp
    cases o with
    | none => simp [Wft.readyOf] at hp
    | some q =>
      simp only [Wft.readyOf, Option.filter] at hp
      split at hp
      · rename_i hr
        injection hp with e; subst e
        simpa [Wft.isReady] using hr
      · exact absurd hp (by simp)
  cases x with
  | feeder q => exact key (some q) f h
  | colour g =>
    simp only [Wft.choose] at h
    split at h
    · exact absurd h (by simp)
    · split at h
      · rename_i p q hp hq
        split at h <;> injection h with e <;> subst e <;> first | exact key _ _ hp | exact key _ _ hq
      · rename_i p hp _
        injection h with e; subst e; exact key _ _ hp
      · rename_i q _ hq
        injection h with e; subst e; exact key _ _ hq
      · exact absurd h (by simp)

/-! ### Re-planning -/

theorem kept_wft_groups {s : State} {w : Wft} {g : Vector Group 8} (h : w = { s.wft with groups := g }) :
    Kept s { s with wft := w } := by
  subst h; exact ⟨rfl, rfl, rfl, rfl, rfl, rfl, rfl, rfl, rfl, rfl, rfl, rfl, rfl, rfl, rfl, rfl, rfl, rfl,
    fun _ => Link.kept.refl _⟩

theorem replan_wft (back : Bool) (w : Wft) (g : Option PlannedGroup) (x : Weft) :
    ∃ v : Vector Group 8, ((if back then w.restore g else w).choose x).wft = { w with groups := v } := by
  obtain ⟨v, hv⟩ := choose_wft (if back then w.restore g else w) x
  cases back
  · exact ⟨v, hv⟩
  · obtain ⟨u, hu⟩ := restore_groups w g
    refine ⟨v, ?_⟩
    rw [hv]; simp [hu]

theorem kept_replanPending (back : Bool) (s : State) : Kept s (replanPending back s) := by
  unfold replanPending
  split
  · exact Kept.refl s
  · rename_i p _
    obtain ⟨v, hv⟩ := replan_wft back s.wft p.group (s.cardOf p.cursor).weft
    simp only [hv]
    exact ⟨rfl, rfl, rfl, rfl, rfl, rfl, rfl, rfl, rfl, rfl, rfl, rfl, rfl, rfl, rfl, rfl, rfl, rfl,
    fun _ => Link.kept.refl _⟩

theorem kept_replanStaged (back : Bool) (s : State) : Kept s (replanStaged back s) := by
  unfold replanStaged
  split
  · exact Kept.refl s
  · rename_i p _
    obtain ⟨v, hv⟩ := replan_wft back s.wft p.group (s.cardOf p.cursor).weft
    simp only [hv]
    exact ⟨rfl, rfl, rfl, rfl, rfl, rfl, rfl, rfl, rfl, rfl, rfl, rfl, rfl, rfl, rfl, rfl, rfl, rfl,
    fun _ => Link.kept.refl _⟩

theorem kept_replanned (b p q : Bool) (s : State) : Kept s (replanned b p q s) := by
  unfold replanned
  refine Kept.trans (kept_raise .w .planChanged s) ?_
  refine Kept.trans (t := if _ then raise .d .readyChanged _ else _) ?_ (kept_triggerWhen ..)
  split
  · exact kept_raise ..
  · exact Kept.refl _

theorem kept_replan (p q : Bool) (s : State) : Kept s (replan p q s) := by
  unfold replan
  split
  · refine Kept.trans ?_ (kept_replanned ..)
    have h : Kept s (if p then replanPending true s else s) := kept_ite (kept_replanPending true s) (Kept.refl s)
    exact kept_ite (h.trans (kept_replanStaged ..)) h
  · exact Kept.refl s

theorem kept_replanFrom (f : Fin 8) (s : State) : Kept s (replanFrom f s) := kept_replan ..

theorem kept_fillPlans (s : State) : Kept s (fillPlans s) := kept_replan ..

theorem kept_replanAfresh (g : Fin 8) (s : State) : Kept s (replanAfresh g s) := by
  unfold replanAfresh
  split
  · split
    · exact Kept.trans (kept_replanPending false s) (kept_replanned ..)
    · exact Kept.refl s
  · exact Kept.refl s

/-! ### The change of a feeder -/

theorem changeFeeder_kept (i : Fin 8) (g : Feeder → Feeder) (s : State) :
    Kept { s with wft := s.wft.setFeeder i (g (s.wft.feeders.get i)) } (changeFeeder i g s) := by
  unfold changeFeeder
  simp only
  split
  · exact Kept.refl _
  · refine Kept.trans (kept_raise .p .feederStateChanged _) ?_
    split
    · exact kept_replanFrom ..
    · split
      · exact kept_fillPlans ..
      · exact Kept.refl _

/-- Without a change of the feeder's state nothing else happens. -/
theorem changeFeeder_quiet {i : Fin 8} {g : Feeder → Feeder} {s : State}
    (h : (g (s.wft.feeders.get i)).state = (s.wft.feeders.get i).state) :
    changeFeeder i g s = { s with wft := s.wft.setFeeder i (g (s.wft.feeders.get i)) } := by
  unfold changeFeeder
  simp only [h, if_true]

end Sys2Proof.Machine
end

