-- ==== Sys2Proof/Laws/Presenting.lean ====
section
/-! SUPPORT. What the operations that bring a pick onto the modules leave and do: the start of a job, a transfer, the PRESENT
job, the entry into READY, the exit from guard, and the end of a TAKE that RESET-SEQUENCER met. -/

namespace Sys2Proof.Machine

/-! ### Starting a job (R62) -/

/-- R62 with a plan that raises nothing. -/
theorem startJob_eq {k : JobKind} {s : State} {c : Cursor} (hc : s.seq.cursor = some c)
    (hr : s.seq.state ≠ .running ∨ (s.wft.choose (s.cardOf c).weft).feeder ≠ none) :
    startJob k s = claim .staged c.slot { s with
      wft := (s.wft.choose (s.cardOf c).weft).wft
      xpe := ⟨some ⟨k, c, Config.hooksPerModule * s.hcc.census⟩,
        .filling ⟨c, (s.wft.choose (s.cardOf c).weft).feeder, (s.wft.choose (s.cardOf c).weft).group, (s.cardOf c).mark,
          false, false⟩⟩ } := by
  unfold startJob
  rw [hc]
  simp only [triggerWhen]
  rw [if_neg]
  rcases hr with hr | hr
  · simp [hr]
  · cases hf : (s.wft.choose (s.cardOf c).weft).feeder
    · exact absurd hf hr
    · simp

theorem kept_startJob (k : JobKind) (s : State) : Kept s (startJob k s) := by
  unfold startJob
  split
  · exact Kept.refl s
  · rename_i c _
    refine Kept.trans ?_ (kept_triggerWhen ..)
    obtain ⟨g, hg⟩ := choose_wft s.wft (s.cardOf c).weft
    simp only [hg]
    exact ⟨rfl, rfl, rfl, rfl, rfl, rfl, rfl, rfl, rfl, rfl, rfl, rfl, rfl, rfl, rfl, rfl, rfl, rfl,
      fun _ => Link.kept.refl _⟩

/-! ### Transfers -/

theorem kept_compareEcho (n : Half) (echo : List ModuleEcho) (s : State) : Kept s (compareEcho n echo s) := by
  unfold compareEcho
  simp only
  split
  · exact kept_units s s.ang s.fst _ _
  · exact (kept_units s s.ang s.fst _ _).trans (kept_raise ..)

theorem kept_updateStatuses (st : List EchoStatus) (s : State) : Kept s (updateStatuses st s) :=
  kept_units s s.ang s.fst s.xpe _

theorem kept_reportLevel (s : State) : Kept s (reportLevel s) :=
  ⟨rfl, rfl, rfl, rfl, rfl, rfl, rfl, rfl, rfl, rfl, rfl, rfl, rfl, rfl, rfl, rfl, rfl, rfl, fun _ => Link.kept.refl _⟩

theorem kept_transferResults (n : Half) (echo : List ModuleEcho) (s : State) : Kept s (transferResults n echo s) := by
  unfold transferResults
  refine Kept.trans ?_ (kept_triggerWhen ..)
  refine Kept.trans ?_ (kept_reportLevel ..)
  refine Kept.trans ?_ (kept_triggerWhen ..)
  exact ((kept_compareEcho n echo s).trans (kept_updateStatuses ..)).trans (kept_units _ _ _ _ _)

/-- A change of SEQ's PRESENT job, state or grant keeps what `Kept` lists. -/
theorem kept_present (s : State) (p : Option PresentJob) : Kept s { s with seq := { s.seq with present := p } } :=
  ⟨rfl, rfl, rfl, rfl, rfl, rfl, rfl, rfl, rfl, rfl, rfl, rfl, rfl, rfl, rfl, rfl, rfl, rfl, fun _ => Link.kept.refl _⟩

theorem kept_reportTransfer (n : Half) (s : State) : Kept s (reportTransfer n s) := by
  unfold reportTransfer
  split
  · split
    · split
      · exact (kept_present s _).trans (kept_units _ _ _ _ _)
      · exact Kept.refl s
    · exact Kept.refl s
  · exact Kept.refl s

theorem kept_startTransfer (s : State) : Kept s (startTransfer s) := by
  have h := fun p : Plan => (kept_endRefresh s).trans (t := endRefresh s)
    (u := { endRefresh s with hcc := { (endRefresh s).hcc with transfer := .shifting p.serial } })
    (kept_units _ (endRefresh s).ang (endRefresh s).fst (endRefresh s).xpe _)
  unfold startTransfer
  split
  · exact Kept.refl s
  · rename_i p _ _ _
    simp only
    split
    · exact ((h p).trans (kept_transferResults ..)).trans (kept_reportTransfer ..)
    · exact h p
  · exact Kept.refl s
  · exact Kept.refl s

/-- A transfer of a COMPLETE staged pick, with modules on the chain (R102). -/
theorem startTransfer_eq {s : State} {p : Plan} {image : List Bool} (hx : s.xpe.staging = .complete p image)
    (hc : s.hcc.census ≠ 0) (ht : s.hcc.isTaking = false) (hr : s.hcc.transfer ≠ .refreshing) :
    startTransfer s = { s with hcc := { s.hcc with transfer := .shifting p.serial } } := by
  unfold startTransfer
  have he : endRefresh s = s := by simp [endRefresh, hr]
  cases hs : s.hcc.transfer <;> simp [Hcc.isTaking, hs] at ht <;> simp [hx, he, hc]

/-! ### The PRESENT job -/

theorem kept_endPresent (s : State) : Kept s (endPresent s) := by
  unfold endPresent
  split
  · exact Kept.refl s
  · exact (kept_present s none).trans (kept_discardStaging _)

theorem kept_beginPresent (g : Stage) (s : State) : Kept s (beginPresent g s) := kept_present s _

theorem kept_presentCursor (s : State) : Kept s (presentCursor s) := by
  unfold presentCursor
  split
  · exact (kept_beginPresent _ s).trans (kept_startTransfer _)
  · exact (kept_units s s.ang s.fst _ s.hcc).trans (kept_beginPresent ..)
  · exact ((kept_discardStaging s).trans (kept_beginPresent ..)).trans (kept_startJob ..)

theorem kept_orderPresent (s : State) : Kept s (orderPresent s) := by
  unfold orderPresent
  split
  · exact ⟨rfl, rfl, rfl, rfl, rfl, rfl, rfl, rfl, rfl, rfl, rfl, rfl, rfl, rfl, rfl, rfl, rfl, rfl, fun _ => Link.kept.refl _⟩
  · exact (kept_endPresent s).trans (kept_presentCursor _)

/-- A PRESENT order that finds an EMPTY buffer expands the cursor pick anew (R69). -/
theorem orderPresent_eq {s : State} {c : Cursor} (hc : s.seq.cursor = some c) (hx : s.xpe = ⟨none, .empty⟩)
    (ht : s.hcc.isTaking = false) :
    orderPresent s = startJob .present { s with seq := { s.seq with present := some ⟨c, .expanding⟩ } } := by
  have hd : ∀ u : State, u.xpe = ⟨none, .empty⟩ → u.hcc.isTaking = false → discardStaging u = u := by
    intro u hu hut
    unfold discardStaging
    have hst : u.xpe.staging = .empty := by rw [hu]
    have e : { u with xpe := ⟨none, .empty⟩ } = u := by rw [← hu]
    cases h : u.hcc.transfer <;> simp [Hcc.isTaking, h] at hut <;> simp only [hst, e]
  have he : endPresent s = { s with seq := { s.seq with present := none } } := by
    unfold endPresent
    split
    · rename_i h; rw [← h]
    · exact hd _ hx ht
  have hp : presentCursor { s with seq := { s.seq with present := none } } =
      startJob .present { s with seq := { s.seq with present := some ⟨c, .expanding⟩ } } := by
    have hst : ({ s with seq := { s.seq with present := none } } : State).xpe.staging = .empty := by simp [hx]
    have hd' := hd { s with seq := { s.seq with present := none } } hx ht
    unfold presentCursor
    rw [hst]
    show startJob .present (beginPresent .expanding (discardStaging _)) = _
    rw [hd']
    simp [beginPresent, hc]
  unfold orderPresent
  cases h : s.hcc.transfer <;> simp [Hcc.isTaking, h] at ht <;> simp only [he, hp]

/-! ### READY and guard exit -/

theorem kept_enterReady (s : State) : Kept s (enterReady s) := by
  refine Kept.trans (Kept.trans ?_ (kept_raise ..)) (kept_raise ..)
  exact ⟨rfl, rfl, rfl, rfl, rfl, rfl, rfl, rfl, rfl, rfl, rfl, rfl, rfl, rfl, rfl, rfl, rfl, rfl, fun _ => Link.kept.refl _⟩

theorem kept_enterPresenting (s : State) : Kept s (enterPresenting s) := by
  refine Kept.trans ?_ (kept_orderPresent _)
  exact ⟨rfl, rfl, rfl, rfl, rfl, rfl, rfl, rfl, rfl, rfl, rfl, rfl, rfl, rfl, rfl, rfl, rfl, rfl, fun _ => Link.kept.refl _⟩

@[simp] theorem Owed.taken_no : Owed.taken .no = .no := rfl
@[simp] theorem Owed.taken_nextTake : Owed.taken .nextTake = .no := rfl
@[simp] theorem Owed.taken_afterTake : Owed.taken .afterTake = .nextTake := rfl

/-- R140, R165: when a guard exit goes to READY. -/
theorem exitsReady_iff (s : State) : s.exitsReady = true ↔ s.exitsToReady := by
  unfold State.exitsReady State.exitsToReady
  cases s.latchedBelongs <;> cases s.hcc.dropHeld <;> decide

theorem kept_guardExit (s : State) : Kept s (guardExit s) := by
  unfold guardExit
  refine Kept.trans ?_ (kept_ite (kept_enterReady _) (kept_enterPresenting _))
  refine Kept.trans (Kept.trans ?_ (kept_raise ..)) (kept_raise ..)
  exact ⟨rfl, rfl, rfl, rfl, rfl, rfl, rfl, rfl, rfl, rfl, rfl, rfl, rfl, rfl, rfl, rfl, rfl, rfl, fun _ => Link.kept.refl _⟩

theorem kept_represent (s : State) : Kept s (represent s) := (kept_enterPresenting s).trans (kept_departed ..)

theorem kept_presentOwed (s : State) : Kept s (presentOwed s) := by
  unfold presentOwed
  exact kept_ite (kept_represent s) (Kept.refl s)

/-- With nothing owed to a map write, nothing follows a guard exit. -/
theorem presentOwed_of_no {s : State} (h : s.seq.representOwed = .no) : presentOwed s = s := by simp [presentOwed, h]

theorem kept_exitCheck (s : State) : Kept s (exitCheck s) := by
  unfold exitCheck
  exact kept_ite ((kept_guardExit s).trans (kept_presentOwed _)) (Kept.refl s)

/-- Outside GUARD there is no exit check to pass. -/
theorem exitCheck_of_ne {s : State} (h : s.seq.state ≠ .guard) : exitCheck s = s := by simp [exitCheck, h]

/-! ### RESET-SEQUENCER and the TAKE it meets (R143, R110) -/

@[simp] theorem releaseStaged_ang (x : Staging) (s : State) : (releaseStaged x s).ang = s.ang := by unfold releaseStaged; split <;> rfl
@[simp] theorem releaseStaged_wlb (x : Staging) (s : State) : (releaseStaged x s).wlb = s.wlb := by unfold releaseStaged; split <;> rfl
@[simp] theorem releaseStaged_hmp (x : Staging) (s : State) : (releaseStaged x s).hmp = s.hmp := by unfold releaseStaged; split <;> rfl
@[simp] theorem releaseStaged_xpe (x : Staging) (s : State) : (releaseStaged x s).xpe = s.xpe := by unfold releaseStaged; split <;> rfl
@[simp] theorem releaseStaged_seq (x : Staging) (s : State) : (releaseStaged x s).seq = s.seq := by unfold releaseStaged; split <;> rfl
@[simp] theorem releaseStaged_chu (x : Staging) (s : State) : (releaseStaged x s).chu = s.chu := by unfold releaseStaged; split <;> rfl
@[simp] theorem releaseStaged_wft (x : Staging) (s : State) : (releaseStaged x s).wft = s.wft := by unfold releaseStaged; split <;> rfl
@[simp] theorem releaseStaged_hcc (x : Staging) (s : State) : (releaseStaged x s).hcc = s.hcc := by unfold releaseStaged; split <;> rfl
@[simp] theorem releaseStaged_grd (x : Staging) (s : State) : (releaseStaged x s).grd = s.grd := by unfold releaseStaged; split <;> rfl
@[simp] theorem releaseStaged_plk (x : Staging) (s : State) : (releaseStaged x s).plk = s.plk := by unfold releaseStaged; split <;> rfl
@[simp] theorem releaseStaged_dlk (x : Staging) (s : State) : (releaseStaged x s).dlk = s.dlk := by unfold releaseStaged; split <;> rfl
@[simp] theorem releaseStaged_wlk (x : Staging) (s : State) : (releaseStaged x s).wlk = s.wlk := by unfold releaseStaged; split <;> rfl
@[simp] theorem releaseStaged_draws (x : Staging) (s : State) : (releaseStaged x s).draws = s.draws := by unfold releaseStaged; split <;> rfl
@[simp] theorem releaseStaged_pending (x : Staging) (s : State) : (releaseStaged x s).pending = s.pending := by unfold releaseStaged; split <;> rfl

@[simp] theorem releaseTaken_ang (s : State) : (releaseTaken s).ang = s.ang := by unfold releaseTaken; split <;> simp
@[simp] theorem releaseTaken_wlb (s : State) : (releaseTaken s).wlb = s.wlb := by unfold releaseTaken; split <;> simp
@[simp] theorem releaseTaken_hmp (s : State) : (releaseTaken s).hmp = s.hmp := by unfold releaseTaken; split <;> simp
@[simp] theorem releaseTaken_xpe (s : State) : (releaseTaken s).xpe = s.xpe := by unfold releaseTaken; split <;> simp
@[simp] theorem releaseTaken_seq (s : State) : (releaseTaken s).seq = s.seq := by unfold releaseTaken; split <;> simp
@[simp] theorem releaseTaken_chu (s : State) : (releaseTaken s).chu = s.chu := by unfold releaseTaken; split <;> simp
@[simp] theorem releaseTaken_wft (s : State) : (releaseTaken s).wft = s.wft := by unfold releaseTaken; split <;> simp
@[simp] theorem releaseTaken_grd (s : State) : (releaseTaken s).grd = s.grd := by unfold releaseTaken; split <;> simp
@[simp] theorem releaseTaken_plk (s : State) : (releaseTaken s).plk = s.plk := by unfold releaseTaken; split <;> simp
@[simp] theorem releaseTaken_dlk (s : State) : (releaseTaken s).dlk = s.dlk := by unfold releaseTaken; split <;> simp
@[simp] theorem releaseTaken_wlk (s : State) : (releaseTaken s).wlk = s.wlk := by unfold releaseTaken; split <;> simp
@[simp] theorem releaseTaken_draws (s : State) : (releaseTaken s).draws = s.draws := by unfold releaseTaken; split <;> simp
@[simp] theorem releaseTaken_pending (s : State) : (releaseTaken s).pending = s.pending := by unfold releaseTaken; split <;> simp

/-- Only the flag changes at HCC, and only while TAKING. -/
theorem releaseTaken_hcc (s : State) :
    (releaseTaken s).hcc = if s.hcc.isTaking then { s.hcc with holdsReleased := true } else s.hcc := by
  unfold releaseTaken
  cases ht : s.hcc.isTaking <;> cases hf : s.hcc.holdsReleased <;> simp
  rw [← hf]

@[simp] theorem closeReleased_ang (s : State) : (closeReleased s).ang = s.ang := rfl
@[simp] theorem closeReleased_fst (s : State) : (closeReleased s).fst = s.fst := rfl
@[simp] theorem closeReleased_wlb (s : State) : (closeReleased s).wlb = s.wlb := rfl
@[simp] theorem closeReleased_hmp (s : State) : (closeReleased s).hmp = s.hmp := rfl
@[simp] theorem closeReleased_seq (s : State) : (closeReleased s).seq = s.seq := rfl
@[simp] theorem closeReleased_chu (s : State) : (closeReleased s).chu = s.chu := rfl
@[simp] theorem closeReleased_wft (s : State) : (closeReleased s).wft = s.wft := rfl
@[simp] theorem closeReleased_grd (s : State) : (closeReleased s).grd = s.grd := rfl
@[simp] theorem closeReleased_plk (s : State) : (closeReleased s).plk = s.plk := rfl
@[simp] theorem closeReleased_dlk (s : State) : (closeReleased s).dlk = s.dlk := rfl
@[simp] theorem closeReleased_wlk (s : State) : (closeReleased s).wlk = s.wlk := rfl
@[simp] theorem closeReleased_draws (s : State) : (closeReleased s).draws = s.draws := rfl
@[simp] theorem closeReleased_pending (s : State) : (closeReleased s).pending = s.pending := rfl
@[simp] theorem closeReleased_xpe (s : State) : (closeReleased s).xpe = ⟨none, .empty⟩ := rfl
@[simp] theorem closeReleased_hcc (s : State) : (closeReleased s).hcc = { s.hcc with
    transfer := .idle, latched := .closed, lastStrobe := some .drop, dropHeld := false, holdsReleased := false } := rfl

end Sys2Proof.Machine
end

