-- ==== Sys2Proof/Laws/GuardExit.lean ====
section
/-! SUPPORT. What an ordered PRESENT job does outside RUNNING, and with it the whole of a guard exit and of the presentation
of R52 that follows it, in the words of Safety.lean. -/

namespace Sys2Proof.Machine

/-- What the orders of a PRESENT job leave outside RUNNING, from `s` to `t`, beside `Kept`: no trigger comes of them. -/
structure Presented (s t : State) : Prop where
  kept : Kept s t
  state : t.seq.state = s.seq.state
  coasting : t.seq.coasting = s.seq.coasting
  owed : t.seq.representOwed = s.seq.representOwed
  latched : t.hcc.latched = s.hcc.latched
  withheld : t.wft.withheld = s.wft.withheld
  grd : t.grd = { s.grd with moduleLevel := t.grd.moduleLevel }

theorem Presented.refl (s : State) : Presented s s := ⟨Kept.refl s, rfl, rfl, rfl, rfl, rfl, rfl⟩

theorem Presented.trans {s t u : State} (h : Presented s t) (k : Presented t u) : Presented s u :=
  ⟨h.kept.trans k.kept, k.state.trans h.state, k.coasting.trans h.coasting, k.owed.trans h.owed,
    k.latched.trans h.latched, k.withheld.trans h.withheld, by rw [k.grd, h.grd]⟩

theorem presented_discardStaging (s : State) : Presented s (discardStaging s) where
  kept := kept_discardStaging s
  state := by simp
  coasting := by simp
  owed := by simp
  latched := by rcases discardStaging_hcc s with h | h <;> rw [h]
  withheld := by obtain ⟨g, h⟩ := discardStaging_wft s; rw [h]
  grd := by simp

theorem presented_present (s : State) (p : Option PresentJob) :
    Presented s { s with seq := { s.seq with present := p } } := ⟨kept_present s p, rfl, rfl, rfl, rfl, rfl, rfl⟩

theorem presented_endPresent (s : State) : Presented s (endPresent s) := by
  unfold endPresent
  split
  · exact Presented.refl s
  · exact (presented_present s none).trans (presented_discardStaging _)

theorem presented_startJob (k : JobKind) {s : State} (h : s.seq.state ≠ .running) : Presented s (startJob k s) := by
  cases hc : s.seq.cursor with
  | none => simp only [startJob, hc]; exact Presented.refl s
  | some c =>
    refine ⟨kept_startJob k s, ?_, ?_, ?_, ?_, ?_, ?_⟩ <;> rw [startJob_eq hc (.inl h)] <;> try rfl
    obtain ⟨g, hg⟩ := choose_wft s.wft (s.cardOf c).weft
    simp only [claim_wft, hg]

theorem presented_transfer (s : State) (x : Transfer) : Presented s { s with hcc := { s.hcc with transfer := x } } :=
  ⟨kept_units s s.ang s.fst s.xpe _, rfl, rfl, rfl, rfl, rfl, rfl⟩

theorem presented_endRefresh (s : State) : Presented s (endRefresh s) :=
  ⟨kept_endRefresh s, by simp, by simp, by simp, by unfold endRefresh; split <;> simp, by simp, by simp⟩

/-- A transfer of a chain of no modules raises nothing and records only the level (R102, R106). -/
theorem presented_transferResults {s : State} (n : Half) (h : s.hcc.census = 0) : Presented s (transferResults n [] s) := by
  have hb : s.mismatched [] = [] := by simp [State.mismatched, h]
  have hs : s.hcc.budgetSpent (s.mismatched []) = false := by simp [Hcc.budgetSpent, hb]
  have hf : (updateStatuses [] (compareEcho n [] s)).hcc.faultLevel = false := by
    simp [updateStatuses, Hcc.faulty, compareEcho, hb, h]
  have e : transferResults n [] s = reportLevel
      { updateStatuses [] (compareEcho n [] s) with
        hcc := { (updateStatuses [] (compareEcho n [] s)).hcc with transfer := .shifted n } } := by
    simp only [transferResults, hs, triggerWhen, List.map_nil, hf]
    rfl
  refine ⟨kept_transferResults n [] s, ?_, ?_, ?_, ?_, ?_, ?_⟩ <;> rw [e] <;>
    simp only [reportLevel, updateStatuses, compareEcho, hb] <;> rfl

theorem presented_reportTransfer (n : Half) (s : State) : Presented s (reportTransfer n s) := by
  refine ⟨kept_reportTransfer n s, ?_, ?_, ?_, ?_, ?_, ?_⟩ <;> unfold reportTransfer <;> (repeat' split) <;> rfl

theorem presented_startTransfer (s : State) : Presented s (startTransfer s) := by
  unfold startTransfer
  split
  · exact Presented.refl s
  · rename_i p _ _ _
    have h : Presented s { endRefresh s with hcc := { (endRefresh s).hcc with transfer := .shifting p.serial } } :=
      (presented_endRefresh s).trans (presented_transfer _ _)
    have hu : ∀ u : State, Presented s u → Presented s
        (if u.hcc.census = 0 then reportTransfer p.serial (transferResults p.serial [] u) else u) := by
      intro u h
      split
      · rename_i hc
        exact (h.trans (presented_transferResults _ hc)).trans (presented_reportTransfer ..)
      · exact h
    exact hu _ h
  · exact Presented.refl s
  · exact Presented.refl s

theorem presented_presentCursor {s : State} (h : s.seq.state ≠ .running) : Presented s (presentCursor s) := by
  unfold presentCursor
  split
  · exact (presented_present s _).trans (presented_startTransfer _)
  · exact ⟨(kept_units s s.ang s.fst _ s.hcc).trans (kept_beginPresent ..), rfl, rfl, rfl, rfl, rfl, rfl⟩
  · have hd := presented_discardStaging s
    exact (hd.trans (presented_present _ _)).trans
      (presented_startJob .present (s := beginPresent .expanding (discardStaging s))
        (by show (discardStaging s).seq.state ≠ _; rw [hd.state]; exact h))

theorem presented_orderPresent {s : State} (h : s.seq.state ≠ .running) : Presented s (orderPresent s) := by
  have hk := kept_orderPresent s
  revert hk
  unfold orderPresent
  split
  · exact fun hk => ⟨hk, rfl, rfl, rfl, rfl, rfl, rfl⟩
  · have he := presented_endPresent s
    exact fun _ => he.trans (presented_presentCursor (by rw [he.state]; exact h))

/-- R69: nothing staged belongs to the cursor pick, so the PRESENT job expands it anew. -/
theorem orderPresent_expands {s : State} {c : Cursor} (h : s.seq.state ≠ .running) (hc : s.seq.cursor = some c)
    (ht : s.hcc.isTaking = false) (hs : s.stagedBelongs = false) :
    (orderPresent s).seq.present = some ⟨c, .expanding⟩ ∧
      (orderPresent s).xpe.job = some ⟨.present, c, Config.hooksPerModule * s.hcc.census⟩ := by
  have main : ∀ u : State, u.seq.state ≠ .running → u.seq.cursor = some c → u.stagedBelongs = false →
      u.hcc.census = s.hcc.census → (presentCursor u).seq.present = some ⟨c, .expanding⟩ ∧
        (presentCursor u).xpe.job = some ⟨.present, c, Config.hooksPerModule * s.hcc.census⟩ := by
    intro u hu huc hus hn
    have hd := presented_discardStaging u
    have hcen : (discardStaging u).hcc.census = u.hcc.census := by rcases discardStaging_hcc u with e | e <;> rw [e]
    have e : presentCursor u = startJob .present (beginPresent .expanding (discardStaging u)) := by
      unfold presentCursor
      split
      · rename_i hb; rw [hus] at hb; cases hb
      · rename_i hb; rw [hus] at hb; cases hb
      · rfl
    have hcc : (beginPresent .expanding (discardStaging u)).seq.cursor = some c := by
      show (discardStaging u).seq.cursor = some c
      rw [hd.kept.cursor]; exact huc
    rw [e, startJob_eq hcc (.inl (by show (discardStaging u).seq.state ≠ _; rw [hd.state]; exact hu))]
    constructor
    · show (discardStaging u).seq.cursor.map (fun c => (⟨c, .expanding⟩ : PresentJob)) = _
      rw [hd.kept.cursor, huc]; rfl
    · show some (⟨.present, c, Config.hooksPerModule * (discardStaging u).hcc.census⟩ : Job) = _
      rw [hcen, hn]
  have e : orderPresent s = presentCursor (endPresent s) := by
    unfold orderPresent
    cases h : s.hcc.transfer <;> simp [Hcc.isTaking, h] at ht <;> rfl
  rw [e]
  have he := presented_endPresent s
  refine main _ (by rw [he.state]; exact h) (by rw [he.kept.cursor]; exact hc) ?_ ?_
  · unfold endPresent
    split
    · exact hs
    · unfold State.stagedBelongs
      rw [discardStaging_xpe (by exact ht)]
      rfl
  · unfold endPresent
    split
    · rfl
    · rcases discardStaging_hcc { s with seq := { s.seq with present := none } } with e | e <;> rw [e]

/-- R71: while TAKING the order waits. -/
theorem orderPresent_taking {s : State} (ht : s.hcc.isTaking = true) :
    orderPresent s = { s with seq := { s.seq with presentWaiting := true } } := by
  unfold orderPresent
  cases h : s.hcc.transfer <;> simp [Hcc.isTaking, h] at ht <;> rfl

theorem isTaking_iff_takes (s : State) : s.hcc.isTaking = true ↔ s.takes := by
  unfold State.takes
  cases h : s.hcc.transfer <;> simp [Hcc.isTaking, h]

theorem presented_enterPresenting {s : State} :
    Presented { s with seq := { s.seq with state := .presenting } } (enterPresenting s) :=
  presented_orderPresent (by simp)

/-- The presentation that SEQ orders at PRESENTING: what it leaves, and the job for the cursor pick. -/
theorem enterPresenting_does (s : State) :
    Kept s (enterPresenting s) ∧ (enterPresenting s).seq.state = .presenting ∧
      (enterPresenting s).seq.coasting = s.seq.coasting ∧
      (enterPresenting s).seq.representOwed = s.seq.representOwed ∧ (enterPresenting s).hcc.latched = s.hcc.latched ∧
      (enterPresenting s).wft.withheld = s.wft.withheld ∧
      (enterPresenting s).grd = { s.grd with moduleLevel := (enterPresenting s).grd.moduleLevel } ∧
      (∀ c, ¬s.takes → s.seq.cursor = some c → s.stagedBelongs = false →
        (enterPresenting s).seq.present = some ⟨c, .expanding⟩ ∧
          (enterPresenting s).xpe.job = some ⟨.present, c, 128 * s.hcc.census⟩) ∧
      (s.takes → (enterPresenting s).seq.presentWaiting = true ∧
        (enterPresenting s).hcc.transfer = s.hcc.transfer) := by
  have h := presented_enterPresenting (s := s)
  refine ⟨kept_enterPresenting s, h.state, h.coasting, h.owed, h.latched, h.withheld, h.grd, fun c ht hc hs => ?_,
    fun ht => ?_⟩
  · rw [← isTaking_iff_takes, Bool.not_eq_true] at ht
    exact orderPresent_expands (s := { s with seq := { s.seq with state := .presenting } }) (by simp) hc ht hs
  · rw [← isTaking_iff_takes] at ht
    rw [enterPresenting, orderPresent_taking (by exact ht)]
    exact ⟨rfl, rfl⟩

/-- A state on the way out of guard: nothing but the causes, the stop request, coasting, the sequencer state, the withheld
flag and the notices has changed since `s`. -/
structure Leaving (s t : State) : Prop where
  kept : Kept s t
  grd : t.grd = { s.grd with causes := [], stopRequest := false }
  coasting : t.seq.coasting = false
  owed : t.seq.representOwed = s.seq.representOwed
  hcc : t.hcc = s.hcc
  xpe : t.xpe = s.xpe
  notices : .guardLeft ∈ t.plk.notices ∧ .guardLeft ∈ t.dlk.notices
  ready : s.exitsToReady → .readyChanged ∈ t.dlk.notices ∧ .planChanged ∈ t.wlk.notices ∧ t.wft.withheld = false

/-- Out of guard to READY. -/
theorem Leaving.toReady {s t : State} (h : Leaving s t) (hs : t.seq.state = .ready) (he : s.exitsToReady)
    (ho : s.seq.representOwed = .no) : s.guardLeft s.grd.run s.grd.count t where
  state := by rw [hs, if_pos ⟨he, ho⟩]
  ready := h.ready
  presents := fun _ hp => by rw [hs] at hp; cases hp
  waits := fun hp => by rw [hs] at hp; cases hp
  cleared := by rw [h.grd]; exact ⟨rfl, rfl, h.coasting⟩
  notices := h.notices
  kept := ⟨h.kept.cursor, h.kept.history, h.kept.woven, h.kept.chu, by rw [h.grd], h.owed, by rw [h.hcc]⟩
  counts := by rw [h.grd]; exact ⟨rfl, rfl⟩

/-- Out of guard to PRESENTING. -/
theorem Leaving.toPresenting {s t : State} (h : Leaving s t) (hn : ¬(s.exitsToReady ∧ s.seq.representOwed = .no)) :
    s.guardLeft s.grd.run s.grd.count (enterPresenting t) := by
  obtain ⟨hk, hs, hc, ho, hl, hw, hg, hp, ht⟩ := enterPresenting_does t
  have hts : t.takes ↔ s.takes := by unfold State.takes; rw [h.hcc]
  have hb : t.stagedBelongs = s.stagedBelongs := by unfold State.stagedBelongs; rw [h.xpe, h.kept.cursor]
  have hm := fun l => (hk.links l).notices
  refine {
    state := by rw [hs, if_neg hn]
    ready := fun he => ⟨hm .d _ (h.ready he).1, hm .w _ (h.ready he).2.1, by rw [hw]; exact (h.ready he).2.2⟩
    presents := fun c _ hnt hcur hst => ?_
    waits := fun _ hst => ?_
    cleared := by rw [hg, h.grd]; exact ⟨rfl, rfl, hc.trans h.coasting⟩
    notices := ⟨hm .p _ h.notices.1, hm .d _ h.notices.2⟩
    kept := ⟨hk.cursor.trans h.kept.cursor, hk.history.trans h.kept.history, hk.woven.trans h.kept.woven,
      hk.chu.trans h.kept.chu, by rw [hg, h.grd], ho.trans h.owed, by rw [hl, h.hcc]⟩
    counts := by rw [hg, h.grd]; exact ⟨rfl, rfl⟩ }
  · rw [← h.hcc]
    exact hp c (mt hts.1 hnt) (h.kept.cursor.trans hcur) (hb.trans hst)
  · rw [← h.hcc]
    exact ht (hts.2 hst)

/-- A notice leaves what is said of a guard exit. -/
theorem guardLeft_raise {s t : State} {run count : Nat} (h : s.guardLeft run count t) (l : LinkId) (n : NoticeKind) :
    s.guardLeft run count (raise l n t) := by
  have hm := fun k => ((kept_raise l n t).links k).notices
  exact {
    state := by rw [raise_seq]; exact h.state
    ready := fun he => ⟨hm .d _ (h.ready he).1, hm .w _ (h.ready he).2.1, by rw [raise_wft]; exact (h.ready he).2.2⟩
    presents := by rw [raise_seq, raise_xpe]; exact h.presents
    waits := by rw [raise_seq, raise_hcc]; exact h.waits
    cleared := by rw [raise_seq, raise_grd]; exact h.cleared
    notices := ⟨hm .p _ h.notices.1, hm .d _ h.notices.2⟩
    kept := by rw [raise_seq, raise_chu, raise_grd, raise_hcc]; exact h.kept
    counts := by rw [raise_grd]; exact h.counts }

/-- R170: a check that passes. -/
theorem exitCheck_of_mayExit {s : State} (h : s.seq.state = .guard) (hm : s.mayExit = true) :
    exitCheck s = presentOwed (guardExit s) := if_pos ⟨h, hm⟩

/-- R140, R170 with R52: the whole of a guard exit and of the presentation that follows it. -/
theorem guardLeft_guardExit (s : State) : s.guardLeft s.grd.run s.grd.count (presentOwed (guardExit s)) := by
  obtain ⟨t, ht⟩ : ∃ t : State, t = raise .d .guardLeft (raise .p .guardLeft
      { s with grd := { s.grd with causes := [], stopRequest := false }, seq := { s.seq with coasting := false } }) := ⟨_, rfl⟩
  have he : guardExit s = if s.exitsToReady then enterReady t else enterPresenting t := by
    rw [ht]
    unfold guardExit
    simp only [← exitsReady_iff]
    rfl
  have hk : Kept s t := by
    rw [ht]
    refine Kept.trans (Kept.trans ?_ (kept_raise ..)) (kept_raise ..)
    exact ⟨rfl, rfl, rfl, rfl, rfl, rfl, rfl, rfl, rfl, rfl, rfl, rfl, rfl, rfl, rfl, rfl, rfl, rfl,
      fun _ => Link.kept.refl _⟩
  have hn : .guardLeft ∈ t.plk.notices ∧ .guardLeft ∈ t.dlk.notices := by
    rw [ht]; exact ⟨(mem_raise ..).2 (.inl rfl), (mem_raise ..).2 (.inl rfl)⟩
  have hg : t.grd = { s.grd with causes := [], stopRequest := false } := by rw [ht]; rfl
  have hq : t.seq = { s.seq with coasting := false } := by rw [ht]; rfl
  have hh : t.hcc = s.hcc := by rw [ht]; rfl
  have hx : t.xpe = s.xpe := by rw [ht]; rfl
  by_cases hr : s.exitsToReady
  · rw [he, if_pos hr]
    have hm := fun l => ((kept_enterReady t).links l).notices
    have h : Leaving s (enterReady t) :=
      ⟨hk.trans (kept_enterReady t), hg, by show t.seq.coasting = false; rw [hq],
        by show t.seq.representOwed = _; rw [hq], hh, hx, ⟨hm .p _ hn.1, hm .d _ hn.2⟩,
        fun _ => ⟨(mem_raise ..).2 (.inl rfl), (mem_raise ..).2 (.inl rfl), rfl⟩⟩
    have hs : (enterReady t).seq.state = .ready := rfl
    by_cases ho : s.seq.representOwed = .no
    · rw [presentOwed_of_no (h.owed.trans ho)]
      exact h.toReady hs hr ho
    · have hp : presentOwed (enterReady t) = raise .d .readyChanged (enterPresenting (enterReady t)) := by
        unfold presentOwed represent
        rw [if_pos ⟨hs, by rw [h.owed]; exact ho⟩, hs]
        rfl
      rw [hp]
      exact guardLeft_raise (h.toPresenting fun x => ho x.2) ..
  · have h : Leaving s t :=
      ⟨hk, hg, by rw [hq], by rw [hq], hh, hx, hn, fun x => absurd x hr⟩
    have hl := h.toPresenting fun x => hr x.1
    have hp : presentOwed (enterPresenting t) = enterPresenting t := by
      unfold presentOwed
      rw [if_neg]
      intro x
      have := (enterPresenting_does t).2.1
      rw [x.1] at this
      cases this
    rw [he, if_neg hr, hp]
    exact hl

end Sys2Proof.Machine
end

