-- ==== Sys2Proof/Laws/Memory.lean ====
section
/-! SUPPORT. The sparse contents of a design: what a read gives after a write, and that every operation keeps the canonical
form (log 10). -/

namespace Sys2Proof.Machine

variable {α : Type}

/-- A read below every listed position gives the default. -/
theorem Memory.get_of_wfFrom [DecidableEq α] (d : α) : ∀ (m : List (Nat × α)) (a b : Nat),
    Memory.wfFrom d a m = true → b < a → Memory.get d m b = d := by
  intro m
  induction m with
  | nil => intros; rfl
  | cons x m ih =>
    obtain ⟨k, v⟩ := x
    intro a b h hb
    simp only [Memory.wfFrom, Bool.and_eq_true, decide_eq_true_eq] at h
    simp only [Memory.get]
    rw [if_neg (by omega)]
    exact ih (k + 1) b h.2 (by omega)

theorem Memory.wfFrom_mono [DecidableEq α] (d : α) : ∀ (m : List (Nat × α)) (a b : Nat),
    Memory.wfFrom d a m = true → b ≤ a → Memory.wfFrom d b m = true := by
  intro m
  cases m with
  | nil => intros; rfl
  | cons x m =>
    intro a b h hb
    simp only [Memory.wfFrom, Bool.and_eq_true, decide_eq_true_eq] at h ⊢
    exact ⟨⟨by omega, h.1.2⟩, h.2⟩

/-- A write keeps the canonical form. -/
theorem Memory.wfFrom_put [DecidableEq α] (d : α) (a : Nat) (v : α) : ∀ (m : List (Nat × α)) (b : Nat),
    Memory.wfFrom d b m = true → b ≤ a → Memory.wfFrom d b (Memory.put d m a v) = true := by
  intro m
  induction m with
  | nil =>
    intro b _ hb
    simp only [Memory.put]
    split
    · rfl
    · simp [Memory.wfFrom, *]
  | cons x m ih =>
    obtain ⟨k, w⟩ := x
    intro b h hb
    have h' := h
    simp only [Memory.wfFrom, Bool.and_eq_true, decide_eq_true_eq] at h
    simp only [Memory.put]
    split
    · split
      · exact h'
      · simp only [Memory.wfFrom, Bool.and_eq_true, decide_eq_true_eq]
        exact ⟨⟨hb, by assumption⟩, ⟨by omega, h.1.2⟩, h.2⟩
    · split
      · split
        · exact Memory.wfFrom_mono d m (k + 1) b h.2 (by omega)
        · simp only [Memory.wfFrom, Bool.and_eq_true, decide_eq_true_eq]
          exact ⟨⟨hb, by assumption⟩, by rename_i e _; rw [e]; exact h.2⟩
      · simp only [Memory.wfFrom, Bool.and_eq_true, decide_eq_true_eq]
        exact ⟨h.1, ih (k + 1) h.2 (by omega)⟩

theorem Memory.wf_put [DecidableEq α] {d : α} {m : List (Nat × α)} (h : Memory.wf d m = true) (a : Nat) (v : α) :
    Memory.wf d (Memory.put d m a v) = true := Memory.wfFrom_put d a v m 0 h (Nat.zero_le a)

@[simp] theorem Memory.wf_nil [DecidableEq α] (d : α) : Memory.wf d ([] : List (Nat × α)) = true := rfl

/-- Reading after writing, in canonical form. -/
theorem Memory.get_put [DecidableEq α] (d : α) (a : Nat) (v : α) (b : Nat) : ∀ (m : List (Nat × α)) (c : Nat),
    Memory.wfFrom d c m = true → Memory.get d (Memory.put d m a v) b = if a = b then v else Memory.get d m b := by
  intro m
  induction m with
  | nil =>
    intro c _
    simp only [Memory.put]
    split
    · rename_i e; simp [Memory.get, e]
    · simp [Memory.get]
  | cons x m ih =>
    obtain ⟨k, w⟩ := x
    intro c h
    simp only [Memory.wfFrom, Bool.and_eq_true, decide_eq_true_eq] at h
    simp only [Memory.put]
    split
    · rename_i hak
      split
      · rename_i e
        split
        · rename_i hab
          subst hab
          simp only [Memory.get]
          rw [if_neg (by omega), e]
          exact Memory.get_of_wfFrom d m (k + 1) a h.2 (by omega)
        · rfl
      · simp only [Memory.get]
    · split
      · rename_i hak
        subst hak
        split
        · rename_i e
          simp only [Memory.get]
          split
          · rename_i hab
            subst hab
            rw [e]; exact Memory.get_of_wfFrom d m (a + 1) a h.2 (by omega)
          · rfl
        · simp only [Memory.get]; split <;> rfl
      · simp only [Memory.get]
        rw [ih (k + 1) h.2]
        split
        · split
          · omega
          · rfl
        · rfl

/-- Both parts of a design's contents are in canonical form. -/
def Design.canonical (d : Design) : Prop :=
  Memory.wf 0 d.cells = true ∧ Memory.wf CardRecord.initial d.cards = true

theorem canonical_setCell {d : Design} (h : d.canonical) (c j : Nat) (v : BitVec 4) : (d.setCell c j v).canonical :=
  ⟨Memory.wf_put h.1 _ _, h.2⟩

theorem canonical_setCard {d : Design} (h : d.canonical) (c : Nat) (r : CardRecord) : (d.setCard c r).canonical :=
  ⟨h.1, Memory.wf_put h.2 _ _⟩

/-- A card record after a card write. -/
theorem card_setCard {d : Design} (h : d.canonical) (c k : Nat) (r : CardRecord) :
    (d.setCard c r).card k = if c = k then r else d.card k := by
  have hp := Memory.get_put CardRecord.initial (d.cardPos c) r (d.cardPos k) d.cards 0 h.2
  show Memory.get _ (Memory.put _ d.cards (d.cardPos c) r) (d.cardPos k) = _
  rw [hp]
  by_cases e : c = k
  · rw [if_pos e, if_pos (by rw [e])]
  · have hne : d.cardPos c ≠ d.cardPos k := by
      simp only [Design.cardPos]
      intro hc
      rcases Nat.lt_trichotomy c k with hlt | heq | hgt
      · have := Nat.mul_le_mul_right (d.width + 8) (show c + 1 ≤ k from hlt)
        rw [Nat.add_mul] at this; omega
      · exact e heq
      · have := Nat.mul_le_mul_right (d.width + 8) (show k + 1 ≤ c from hgt)
        rw [Nat.add_mul] at this; omega
    rw [if_neg e, if_neg hne]; rfl

/-- A cell write leaves the card records, a card write the cells. -/
@[simp] theorem card_setCell (d : Design) (c j k : Nat) (v : BitVec 4) : (d.setCell c j v).card k = d.card k := rfl

@[simp] theorem cell_setCard (d : Design) (c : Nat) (r : CardRecord) (x y : Nat) :
    (d.setCard c r).cell x y = d.cell x y := rfl

/-- Cells of different places in the figure lie at different positions. -/
theorem cellPos_inj {d : Design} {c j x y : Nat} (hj : j < d.width) (hy : y < d.width)
    (h : d.cellPos c j = d.cellPos x y) : c = x ∧ j = y := by
  simp only [Design.cellPos, Design.cardPos] at h
  rcases Nat.lt_trichotomy c x with hlt | heq | hgt
  · have := Nat.mul_le_mul_right (d.width + 8) (show c + 1 ≤ x from hlt)
    rw [Nat.add_mul] at this; omega
  · subst heq; exact ⟨rfl, by omega⟩
  · have := Nat.mul_le_mul_right (d.width + 8) (show x + 1 ≤ c from hgt)
    rw [Nat.add_mul] at this; omega

/-- A cell of the figure after a cell write in the figure. -/
theorem cell_setCell {d : Design} (h : d.canonical) {c j x y : Nat} (v : BitVec 4) (hj : j < d.width) (hy : y < d.width) :
    (d.setCell c j v).cell x y = if c = x ∧ j = y then v else d.cell x y := by
  have := Memory.get_put 0 (d.cellPos c j) v (d.cellPos x y) d.cells 0 h.1
  show Memory.get 0 (Memory.put 0 d.cells (d.cellPos c j) v) (d.cellPos x y) = _
  rw [this]
  by_cases e : c = x ∧ j = y
  · rw [if_pos e, e.1, e.2, if_pos rfl]
  · rw [if_neg e, if_neg fun hp => e (cellPos_inj hj hy hp)]; rfl

end Sys2Proof.Machine
end

