-- ==== Sys2Proof/Laws/Replanning.lean ====
section
/-! SUPPORT. What planning again does, in the words of Safety.lean: the pending plan, the re-plan of each plan, and the
whole of `replan`, `replanFrom` and `fillPlans`. -/

namespace Sys2Proof.Machine

/-- R82: when a plan is the pending plan. -/
theorem pendingPlan_eq_some {s : State} {p : Plan} :
    s.pendingPlan = some p ↔
      s.hcc.latched.plan = some p ∧ s.hcc.holdsReleased = false ∧ s.seq.cursor = some p.cursor := by
  unfold State.pendingPlan
  cases h : s.hcc.latched.plan with
  | none => simp
  | some q =>
    by_cases hq : s.hcc.holdsReleased = false ∧ s.seq.cursor = some q.cursor
    · simp only [hq, and_self, if_true, Option.some.injEq]
      constructor
      · rintro rfl; exact ⟨rfl, trivial, rfl⟩
      · exact fun h => h.1
    · simp only [hq, if_false, Option.some.injEq]
      constructor
      · intro h; cases h
      · rintro ⟨rfl, h⟩; exact absurd h hq

/-- R55: the latched pick belongs to the cursor pick exactly when it has a pending plan. -/
theorem latchedBelongs_iff {s : State} : s.latchedBelongs = true ↔ s.pendingPlan ≠ none := by
  unfold State.latchedBelongs; cases s.pendingPlan <;> simp

/-- R83: what `restore` does to a group. -/
theorem restore_eq_foundBy (w : Wft) (g : Option PlannedGroup) : w.restore g = w.foundBy g := by
  cases g <;> rfl

/-- R84: the pending plan planned again. -/
theorem replanPending_eq {s : State} {p : Plan} {image : List Bool} (hl : s.hcc.latched = .pick p image)
    (hp : s.pendingPlan = some p) (back : Bool) :
    replanPending back s =
      let c := (if back then s.wft.foundBy p.group else s.wft).choose (s.cardOf p.cursor).weft
      { s with wft := c.wft, hcc := { s.hcc with latched := .pick { p with feeder := c.feeder, group := c.group } image } } := by
  simp only [replanPending, hp, hl, Latched.modPlan, Plan.withChoice, restore_eq_foundBy]

/-- R84: both plans name the same colour group. -/
theorem plansShareGroup_iff {s : State} : s.plansShareGroup = true ↔ s.plansShare := by
  unfold State.plansShareGroup State.plansShare
  cases hp : s.pendingPlan with
  | none => simp
  | some p =>
    cases hq : s.xpe.staging.plan with
    | none => simp
    | some q =>
      unfold sameGroup
      cases hpg : p.group with
      | none => simp [hpg]
      | some a =>
        cases hqg : q.group with
        | none => simp [hpg, hqg]
        | some b => simp [hpg, hqg] <;> exact eq_comm

/-- A plan is present and names this feeder. -/
theorem planNames_iff {f : Fin 8} {x : Option Plan} : planNames f x = true ↔ ∃ p, x = some p ∧ p.feeder = some f := by
  cases x <;> simp [planNames]

/-- A plan is present and names NONE. -/
theorem planNone_iff {x : Option Plan} : planNone x = true ↔ ∃ p, x = some p ∧ p.feeder = none := by
  cases x <;> simp [planNone]

/-- The re-plan of the pending plan leaves the staging buffer, the store, the sequencer and the holds. -/
theorem replanPending_keeps (back : Bool) (s : State) :
    (replanPending back s).xpe = s.xpe ∧ (replanPending back s).fst = s.fst ∧ (replanPending back s).seq = s.seq ∧
      (replanPending back s).pendingPlan.isSome = s.pendingPlan.isSome := by
  cases hp : s.pendingPlan with
  | none => simp [replanPending, hp]
  | some p =>
    obtain ⟨hl, hr, hc⟩ := pendingPlan_eq_some.1 hp
    cases hlat : s.hcc.latched with
    | unknown => rw [hlat] at hl; cases hl
    | closed => rw [hlat] at hl; cases hl
    | pick p0 image =>
      rw [hlat] at hl
      cases hl
      rw [replanPending_eq hlat hp]
      exact ⟨rfl, rfl, rfl, Option.isSome_iff_exists.2 ⟨_, pendingPlan_eq_some.2 ⟨rfl, hr, hc⟩⟩⟩

/-- The re-plan of the staged plan leaves the latched record and the sequencer. -/
theorem replanStaged_keeps (back : Bool) (s : State) :
    (replanStaged back s).hcc = s.hcc ∧ (replanStaged back s).seq = s.seq := by
  unfold replanStaged; split <;> exact ⟨rfl, rfl⟩

/-- The re-plan of the staged plan. -/
theorem replanStaged_eq {s : State} {q : Plan} (hq : s.xpe.staging.plan = some q) (back : Bool) :
    replanStaged back s =
      let c := (if back then s.wft.foundBy q.group else s.wft).choose (s.cardOf q.cursor).weft
      { s with wft := c.wft, xpe := { s.xpe with staging := (match s.xpe.staging with
        | .empty => .empty
        | .filling _ => .filling { q with feeder := c.feeder, group := c.group }
        | .complete _ image => .complete { q with feeder := c.feeder, group := c.group } image) } } := by
  simp only [replanStaged, hq, restore_eq_foundBy]
  cases hs : s.xpe.staging with
  | empty => rw [hs] at hq; cases hq
  | filling p => rw [hs] at hq; cases hq; rfl
  | complete p i => rw [hs] at hq; cases hq; rfl

/-- R84: the plans planned again, as `replan` does it before the notices. -/
theorem plansAgain_replan {s : State} {pending staged : Bool} (hp : pending = true → ∃ p, s.pendingPlan = some p) :
    s.plansAgain (pending = true) (staged = true)
      (if staged then replanStaged (!(pending && s.plansShareGroup)) (if pending then replanPending true s else s)
        else if pending then replanPending true s else s) := by
  have hx : (if pending then replanPending true s else s).xpe = s.xpe ∧
      (if pending then replanPending true s else s).fst = s.fst := by
    cases pending
    · exact ⟨rfl, rfl⟩
    · exact ⟨(replanPending_keeps true s).1, (replanPending_keeps true s).2.1⟩
  refine ⟨if pending then replanPending true s else s, fun h => if_neg h, fun p image h hl => ?_, fun h => if_neg h,
    fun q h hq => ?_⟩
  · obtain ⟨p', hp'⟩ := hp h
    have hpp : s.pendingPlan = some p := by
      have h1 := (pendingPlan_eq_some.1 hp').1
      rw [hl] at h1; cases h1; exact hp'
    exact ⟨_, rfl, by rw [if_pos h, replanPending_eq hl hpp]; rfl⟩
  · have hb : (pending && s.plansShareGroup) = true ↔ pending = true ∧ s.plansShare := by
      rw [Bool.and_eq_true, plansShareGroup_iff]
    rw [if_pos h]
    generalize (if pending then replanPending true s else s) = x at hx
    have hcard : x.cardOf q.cursor = s.cardOf q.cursor := by
      unfold State.cardOf State.design State.slot; rw [hx.2]
    rw [← hx.1] at hq
    rw [replanStaged_eq hq, hcard]
    refine ⟨(if !(pending && s.plansShareGroup) then x.wft.foundBy q.group else x.wft).choose (s.cardOf q.cursor).weft,
      fun h => ?_, fun h => ?_, by rw [hx.1] <;> cases s.xpe.staging <;> rfl⟩
    · rw [hb.2 h]; rfl
    · rw [Bool.eq_false_iff.2 (mt hb.1 h)]; rfl

/-- The planned feeder of the pending plan is absent exactly when a present plan names NONE. -/
theorem pendingFeeder_eq_none {s : State} (h : s.pendingPlan.isSome = true) :
    s.pendingFeeder = none ↔ planNone s.pendingPlan = true := by
  cases hp : s.pendingPlan with
  | none => rw [hp] at h; cases h
  | some p => simp [State.pendingFeeder, hp, planNone]

/-- R84, R85: everything that planning again does. -/
theorem replan_replansTo {s : State} {pending staged : Bool} (hp : pending = true → ∃ p, s.pendingPlan = some p) :
    s.replansTo (pending = true) (staged = true) (replan pending staged s) := by
  refine ⟨fun h1 h2 => ?_, fun h => ?_⟩
  · rw [Bool.not_eq_true] at h1 h2; subst h1 h2; rfl
  have hv : (if staged then replanStaged (!(pending && s.plansShareGroup)) (if pending then replanPending true s else s)
        else if pending then replanPending true s else s).pendingPlan.isSome = s.pendingPlan.isSome ∧
      (if staged then replanStaged (!(pending && s.plansShareGroup)) (if pending then replanPending true s else s)
        else if pending then replanPending true s else s).seq = s.seq := by
    have hx : (if pending then replanPending true s else s).pendingPlan.isSome = s.pendingPlan.isSome ∧
        (if pending then replanPending true s else s).seq = s.seq := by
      cases pending
      · exact ⟨rfl, rfl⟩
      · exact ⟨(replanPending_keeps true s).2.2.2, (replanPending_keeps true s).2.2.1⟩
    cases staged
    · exact hx
    · have hk := replanStaged_keeps (!(pending && s.plansShareGroup)) (if pending then replanPending true s else s)
      refine ⟨?_, hk.2.trans hx.2⟩
      rw [← hx.1]
      simp only [if_true, State.pendingPlan, hk.1, hk.2]
  have hr : replan pending staged s = replanned (planNone s.pendingPlan) pending staged
      (if staged then replanStaged (!(pending && s.plansShareGroup)) (if pending then replanPending true s else s)
        else if pending then replanPending true s else s) := by
    unfold replan; rw [if_pos (by simpa using h)]
  have ha := plansAgain_replan (staged := staged) hp
  rw [hr]
  generalize (if staged then replanStaged (!(pending && s.plansShareGroup)) (if pending then replanPending true s else s)
    else if pending then replanPending true s else s) = v at hv ha
  have hnone : pending = true → (s.pendingFeeder = none ↔ planNone s.pendingPlan = true) ∧
      (v.pendingFeeder = none ↔ planNone v.pendingPlan = true) := by
    intro h
    obtain ⟨p, hp⟩ := hp h
    have : s.pendingPlan.isSome = true := by rw [hp]; rfl
    exact ⟨pendingFeeder_eq_none this, pendingFeeder_eq_none (hv.1.trans this)⟩
  have hstag : planNone v.xpe.staging.plan = true ↔ ∃ q, v.xpe.staging.plan = some q ∧ q.feeder = none := planNone_iff
  have hcond : (s.seq.state = .ready ∧ pending = true ∧ planNone s.pendingPlan ≠ planNone v.pendingPlan) ↔
      (s.seq.state = .ready ∧ pending = true ∧ ¬(s.pendingFeeder = none ↔ v.pendingFeeder = none)) := by
    refine and_congr_right fun _ => and_congr_right fun hpd => ?_
    rw [(hnone hpd).1, (hnone hpd).2]
    cases planNone s.pendingPlan <;> cases planNone v.pendingPlan <;> simp
  let z := if s.seq.state = .ready ∧ pending = true ∧ ¬(s.pendingFeeder = none ↔ v.pendingFeeder = none) then
    raise .d .readyChanged (raise .w .planChanged v) else raise .w .planChanged v
  have hz : z.seq = s.seq ∧ z.pendingPlan = v.pendingPlan ∧ z.xpe = v.xpe := by
    show (ite _ _ _ : State).seq = _ ∧ (ite _ _ _ : State).pendingPlan = _ ∧ (ite _ _ _ : State).xpe = _
    split <;> exact ⟨hv.2, rfl, rfl⟩
  have he : replanned (planNone s.pendingPlan) pending staged v = triggerWhen
      (decide (z.seq.state = .running) && (pending && planNone z.pendingPlan || staged && planNone z.xpe.staging.plan))
      .feederUnavailable z := by
    unfold replanned
    have : (raise .w .planChanged v).seq = s.seq := hv.2
    have h2 : (raise .w .planChanged v).pendingPlan = v.pendingPlan := rfl
    simp only [this, h2, ne_eq, hcond]
    rfl
  rw [he, hz.1, hz.2.1, hz.2.2]
  have hun : (decide (s.seq.state = .running) &&
        (pending && planNone v.pendingPlan || staged && planNone v.xpe.staging.plan)) = true ↔
      s.seq.state = .running ∧ (pending = true ∧ v.pendingFeeder = none ∨
        staged = true ∧ ∃ q, v.xpe.staging.plan = some q ∧ q.feeder = none) := by
    rw [Bool.and_eq_true, Bool.or_eq_true, Bool.and_eq_true, Bool.and_eq_true, hstag, decide_eq_true_eq]
    refine and_congr_right fun _ => or_congr (and_congr_right fun hpd => ?_) Iff.rfl
    exact (hnone hpd).2.symm
  exact ⟨v, z, ha, fun h => if_pos h, fun h => if_neg h, fun h => if_pos (hun.2 h), fun h => if_neg (mt hun.1 h)⟩

/-- A re-plan says the same of equivalent conditions. -/
theorem State.replansTo.congr {u t : State} {a b c d : Prop} (h : u.replansTo a b t) (hac : a ↔ c) (hbd : b ↔ d) :
    u.replansTo c d t := by
  have h1 : a = c := propext hac
  have h2 : b = d := propext hbd
  subst h1 h2
  exact h

/-- R84: the re-plan when a feeder leaves READY. -/
theorem replanFrom_replansFrom (f : Fin 8) (s : State) : s.replansFrom f (replanFrom f s) :=
  (replan_replansTo (staged := planNames f s.xpe.staging.plan || planNames f s.pendingPlan && s.plansShareGroup)
    fun h => (planNames_iff.1 h).imp fun _ => And.left).congr planNames_iff
    (by rw [Bool.or_eq_true, Bool.and_eq_true, planNames_iff, planNames_iff, plansShareGroup_iff])

/-- R85: the fill when a feeder enters READY. -/
theorem fillPlans_fillsPlans (s : State) : s.fillsPlans (fillPlans s) :=
  (replan_replansTo fun h => (planNone_iff.1 h).imp fun _ => And.left).congr planNone_iff planNone_iff

end Sys2Proof.Machine
end

