-- ==== Sys2Proof/Laws/Store.lean ====
section
/-! SUPPORT. The runs that WRITE-FIGURE and WRITE-CARDS write: they keep the canonical form, the header and the other kind of
contents, and replace exactly the run. -/

namespace Sys2Proof.Machine

/-! ### Runs of cells -/

@[simp] theorem width_writeRun : ∀ (l : List (BitVec 4)) (d : Design) (q : Nat), (d.writeRun q l).width = d.width
  | [], _, _ => rfl
  | v :: l, d, q => width_writeRun l (d.setCell (q / d.width) (q % d.width) v) (q + 1)

@[simp] theorem height_writeRun : ∀ (l : List (BitVec 4)) (d : Design) (q : Nat), (d.writeRun q l).height = d.height
  | [], _, _ => rfl
  | v :: l, d, q => height_writeRun l (d.setCell (q / d.width) (q % d.width) v) (q + 1)

@[simp] theorem map_writeRun : ∀ (l : List (BitVec 4)) (d : Design) (q : Nat), (d.writeRun q l).map = d.map
  | [], _, _ => rfl
  | v :: l, d, q => map_writeRun l (d.setCell (q / d.width) (q % d.width) v) (q + 1)

@[simp] theorem cards_writeRun : ∀ (l : List (BitVec 4)) (d : Design) (q : Nat), (d.writeRun q l).cards = d.cards
  | [], _, _ => rfl
  | v :: l, d, q => cards_writeRun l (d.setCell (q / d.width) (q % d.width) v) (q + 1)

theorem canonical_writeRun : ∀ (l : List (BitVec 4)) (d : Design) (q : Nat), d.canonical → (d.writeRun q l).canonical
  | [], _, _, h => h
  | _ :: l, _, q, h => canonical_writeRun l _ (q + 1) (canonical_setCell h _ _ _)

/-- A card record after a run of cells is what it was. -/
@[simp] theorem card_writeRun (l : List (BitVec 4)) (d : Design) (q k : Nat) : (d.writeRun q l).card k = d.card k := by
  simp [Design.card, Design.cardPos]

/-- A cell after a run of cells: the value of the run at its place in row order, or the old one. -/
theorem cell_writeRun : ∀ (l : List (BitVec 4)) (d : Design) (q x y : Nat), d.canonical → y < d.width →
    (d.writeRun q l).cell x y =
      if q ≤ x * d.width + y ∧ x * d.width + y < q + l.length then l.getD (x * d.width + y - q) 0 else d.cell x y
  | [], d, q, x, y, _, _ => by
    have : ¬(q ≤ x * d.width + y ∧ x * d.width + y < q + ([] : List (BitVec 4)).length) := by
      simp only [List.length_nil]; omega
    rw [if_neg this]; rfl
  | v :: l, d, q, x, y, hc, hy => by
    have hw : 0 < d.width := by omega
    have hm : q % d.width < d.width := Nat.mod_lt _ hw
    have ih := cell_writeRun l (d.setCell (q / d.width) (q % d.width) v) (q + 1) x y (canonical_setCell hc _ _ _) hy
    show ((d.setCell (q / d.width) (q % d.width) v).writeRun (q + 1) l).cell x y = _
    rw [ih, cell_setCell hc v hm hy]
    show (if q + 1 ≤ x * d.width + y ∧ x * d.width + y < q + 1 + l.length then l.getD (x * d.width + y - (q + 1)) 0
      else if q / d.width = x ∧ q % d.width = y then v else d.cell x y) = _
    have hq : q / d.width = x ∧ q % d.width = y ↔ x * d.width + y = q := by
      constructor
      · rintro ⟨rfl, rfl⟩; rw [Nat.mul_comm]; exact Nat.div_add_mod q d.width
      · intro h
        subst h
        rw [Nat.mul_comm]
        exact ⟨by rw [Nat.mul_add_div hw, Nat.div_eq_of_lt hy, Nat.add_zero],
          by rw [Nat.mul_add_mod, Nat.mod_eq_of_lt hy]⟩
    simp only [hq, List.length_cons]
    by_cases h1 : x * d.width + y = q
    · rw [if_neg (by omega), if_pos h1, if_pos (by omega), h1, Nat.sub_self]; rfl
    · by_cases h2 : q + 1 ≤ x * d.width + y ∧ x * d.width + y < q + 1 + l.length
      · rw [if_pos h2, if_pos (by omega)]
        have : x * d.width + y - q = x * d.width + y - (q + 1) + 1 := by omega
        rw [this, List.getD_cons_succ]
      · rw [if_neg h2, if_neg h1, if_neg (by omega)]

/-! ### Runs of card records -/

@[simp] theorem width_writeCards : ∀ (l : List CardRecord) (d : Design) (c : Nat), (d.writeCards c l).width = d.width
  | [], _, _ => rfl
  | r :: l, d, c => width_writeCards l (d.setCard c r) (c + 1)

@[simp] theorem height_writeCards : ∀ (l : List CardRecord) (d : Design) (c : Nat), (d.writeCards c l).height = d.height
  | [], _, _ => rfl
  | r :: l, d, c => height_writeCards l (d.setCard c r) (c + 1)

@[simp] theorem map_writeCards : ∀ (l : List CardRecord) (d : Design) (c : Nat), (d.writeCards c l).map = d.map
  | [], _, _ => rfl
  | r :: l, d, c => map_writeCards l (d.setCard c r) (c + 1)

@[simp] theorem cells_writeCards : ∀ (l : List CardRecord) (d : Design) (c : Nat), (d.writeCards c l).cells = d.cells
  | [], _, _ => rfl
  | r :: l, d, c => cells_writeCards l (d.setCard c r) (c + 1)

theorem canonical_writeCards : ∀ (l : List CardRecord) (d : Design) (c : Nat), d.canonical → (d.writeCards c l).canonical
  | [], _, _, h => h
  | _ :: l, _, c, h => canonical_writeCards l _ (c + 1) (canonical_setCard h _ _)

/-- A cell after a run of card records is what it was. -/
@[simp] theorem cell_writeCards (l : List CardRecord) (d : Design) (c x y : Nat) :
    (d.writeCards c l).cell x y = d.cell x y := by
  simp [Design.cell, Design.cellPos, Design.cardPos]

/-- A card record after a run of records. -/
theorem card_writeCards : ∀ (l : List CardRecord) (d : Design) (c k : Nat), d.canonical →
    (d.writeCards c l).card k = if c ≤ k ∧ k < c + l.length then l.getD (k - c) CardRecord.initial else d.card k
  | [], d, c, k, _ => by
    have : ¬(c ≤ k ∧ k < c + ([] : List CardRecord).length) := by simp only [List.length_nil]; omega
    rw [if_neg this]; rfl
  | r :: l, d, c, k, hc => by
    show ((d.setCard c r).writeCards (c + 1) l).card k = _
    rw [card_writeCards l (d.setCard c r) (c + 1) k (canonical_setCard hc _ _), card_setCard hc, List.length_cons]
    by_cases h1 : c = k
    · rw [if_neg (by omega), if_pos h1, if_pos (by omega), h1, Nat.sub_self]; rfl
    · by_cases h2 : c + 1 ≤ k ∧ k < c + 1 + l.length
      · rw [if_pos h2, if_pos (by omega)]
        have : k - c = k - (c + 1) + 1 := by omega
        rw [this, List.getD_cons_succ]
      · rw [if_neg h2, if_neg h1, if_neg (by omega)]

/-! ### The canonical form -/

theorem canonical_reset : State.reset.contentsCanonical := by
  intro i
  have : State.reset.design i = none := by revert i; decide
  rw [this]; trivial

/-- A fresh design is in canonical form. -/
theorem canonical_fresh (w h : Nat) (map : Vector Nat 16) : Design.canonical ⟨w, h, map, [], []⟩ := ⟨rfl, rfl⟩

end Sys2Proof.Machine
end

