-- ==== Sys2Proof/Tests/Slice0.lean ====
section
/-! SUPPORT. Tests: an ill-formed term for each check of Instr.wf, single steps with the values of the worked examples of the
spec, and for every statement with hypotheses states and operands that meet them. -/

namespace Sys2Proof.Tests

set_option Elab.async false

open Sys2Proof Sys2Proof.Machine

/-! ### States for the tests -/

/-- The state after a command; every command answers a next state. -/
def after (c : Instr) (s : State) : State :=
  match exec c s with
  | .next t => t
  | .fault _ => s
  | .refused _ => s

/-- The design of the example of section 4.1: card 0 repeat 2, card 1 void, card 2 repeat 1, card 3 repeat 3, cards 4
and 5 void; the cards that are woven ask for feeder 3. -/
def sixCards : Design where
  width := 8
  height := 6
  map := Vector.replicate 16 5
  cells := []
  cards := [(0, ⟨.feeder 3, 0, 2, false⟩), (16, ⟨.colour 0, 0, 1, true⟩), (32, ⟨.feeder 3, 0, 1, false⟩),
    (48, ⟨.feeder 3, 5, 3, false⟩), (64, ⟨.colour 0, 0, 1, true⟩), (80, ⟨.colour 0, 0, 1, true⟩)]

/-- Slot 2 holds that design in block 0, VALID, with these references. -/
def store (refs : Refs) : Fst where
  slots := upd Fst.reset.slots 2 ⟨.valid, some sixCards, [0], some 3, false, refs⟩
  owner := upd Fst.reset.owner 0 (some 2)
  free := 255

/-- Feeder 3 READY, the others OFF. -/
def oneFeeder : Wft := { Wft.reset with feeders := upd Wft.reset.feeders 3 ⟨.ready, false, 0, false, 0⟩ }

/-- The loom UNLOADED with the design in the store and a chain of one module. -/
def unloaded : State :=
  { State.reset with
    fst := store Refs.zero
    wft := oneFeeder
    hcc := { Hcc.reset with census := 1 }
    seq := { Seq.reset with serial := 100 } }

/-- The cursor of the example: card 2 of slot 2, serial 100. -/
def cur : Cursor := ⟨2, 2, 0, 0, 0, 100⟩

/-- Its plan. -/
def plan : Plan := ⟨cur, some 3, none, 0, true, false⟩

/-- The modules hold its image: all 128 lifts lowered. -/
def latchedPick : Latched := .pick plan (List.replicate 128 false)

/-- READY at rest, at 100 angle units, INDEXED. -/
def ready : State :=
  { unloaded with
    fst := store ⟨1, 0, 1, 0, 0⟩
    seq := { unloaded.seq with state := .ready, cursor := some cur }
    hcc := { unloaded.hcc with latched := latchedPick }
    ang := { unloaded.ang with count := 100, index := .indexed, rest := .atRest, settleTimer := none, restAngle := 100,
                               armed := [.opening, .closing, .prep, .xfer] } }

/-- That state with the sequencer in another state, under a grant, with the shaft as given. -/
def inState (q : SeqState) (g : Grant) (r : RestState) (s : State) : State :=
  { s with seq := { s.seq with state := q, grant := g }
           ang := { s.ang with rest := r, settleTimer := if r = .atRest then none else some 100 } }

/-- READY with the shaft turning (POSITION). -/
def turning : State := inState .ready .position .moving ready

/-- RUNNING forward. -/
def running : State := inState .running .forward .moving ready

/-- The shaft one step before an angle, with the angles from there on armed. -/
def before (n : Nat) (s : State) : State :=
  { s with ang := { s.ang with count := (n : Int) - 1, armed := SchedAngle.all.filter fun a => n ≤ s.ang.sched.angle a } }

/-- The window of the pending pick open, with an arrival captured at 455. -/
def window (s : State) : State := { s with wft := { s.wft with window := some 100, capture := some 455 } }

/-- The transfer state set. -/
def withTransfer (x : Transfer) (s : State) : State := { s with hcc := { s.hcc with transfer := x } }

/-- A request outstanding on the P-link at its owner, or being answered. -/
def busyLink (st : ReqStage) (s : State) : State :=
  { s with plk := { s.plk with outstanding := some ⟨0x25, st⟩ } }

/-- The pick after `cur`, staged and complete. -/
def stagedCur : Cursor := ⟨2, 3, 0, 0, 1, 101⟩

def staged (s : State) : State :=
  { s with xpe := ⟨none, .complete ⟨stagedCur, some 3, none, 5, true, false⟩ (List.replicate 128 false)⟩
           fst := store ⟨1, 1, 1, 0, 0⟩
           seq := { s.seq with cursor := some stagedCur, serial := 101 } }

/-! ### Well-formedness: one ill-formed term for each check -/

theorem test_wf_frames : (Instr.frameError .p []).wf = false ∧
    (Instr.unknownRequest .d [⟨0x00, false⟩]).wf = false ∧ (Instr.overlappingFrame .w [⟨0xA5, true⟩]).wf = false ∧
    (Instr.encodingFault .p []).wf = false := by decide

theorem test_wf_setSchedule : (Instr.setSchedule ⟨65536, 0, 0, 0, 0, 0, 0⟩).wf = false ∧
    (Instr.setSchedule ⟨0, 65536, 0, 0, 0, 0, 0⟩).wf = false ∧ (Instr.setSchedule ⟨0, 0, 65536, 0, 0, 0, 0⟩).wf = false ∧
    (Instr.setSchedule ⟨0, 0, 0, 65536, 0, 0, 0⟩).wf = false ∧ (Instr.setSchedule ⟨0, 0, 0, 0, 65536, 0, 0⟩).wf = false ∧
    (Instr.setSchedule ⟨0, 0, 0, 0, 0, 256, 0⟩).wf = false ∧ (Instr.setSchedule ⟨0, 0, 0, 0, 0, 0, 256⟩).wf = false := by
  decide

theorem test_wf_defineDesign : (Instr.defineDesign 256 8 1 (Vector.replicate 16 0)).wf = false ∧
    (Instr.defineDesign 0 65536 1 (Vector.replicate 16 0)).wf = false ∧
    (Instr.defineDesign 0 8 65536 (Vector.replicate 16 0)).wf = false ∧
    (Instr.defineDesign 0 8 1 (Vector.replicate 16 256)).wf = false := by decide

theorem test_wf_writeFigure : (Instr.writeFigure 256 0 0 [0]).wf = false ∧ (Instr.writeFigure 0 65536 0 [0]).wf = false ∧
    (Instr.writeFigure 0 0 65536 [0]).wf = false ∧ (Instr.writeFigure 0 0 0 []).wf = false := by decide

theorem test_wf_writeCards : (Instr.writeCards 256 0 [CardRecord.initial]).wf = false ∧
    (Instr.writeCards 0 65536 [CardRecord.initial]).wf = false ∧ (Instr.writeCards 0 0 []).wf = false ∧
    (Instr.writeCards 0 0 [⟨.colour 0, 0, 0, false⟩]).wf = false ∧
    (Instr.writeCards 0 0 [⟨.colour 0, 0, 5, false⟩]).wf = false := by decide

theorem test_wf_readFigure : (Instr.readFigure 256 0 0 1).wf = false ∧ (Instr.readFigure 0 65536 0 1).wf = false ∧
    (Instr.readFigure 0 0 65536 1).wf = false ∧ (Instr.readFigure 0 0 0 0).wf = false ∧
    (Instr.readFigure 0 0 0 8001).wf = false := by decide

theorem test_wf_readCards : (Instr.readCards 256 0 1).wf = false ∧ (Instr.readCards 0 65536 1).wf = false ∧
    (Instr.readCards 0 0 0).wf = false ∧ (Instr.readCards 0 0 513).wf = false := by decide

theorem test_wf_slots : (Instr.commitDesign 256).wf = false ∧ (Instr.reopenDesign 256).wf = false ∧
    (Instr.eraseDesign 256).wf = false ∧ (Instr.selectDesign 256 0).wf = false ∧
    (Instr.selectDesign 0 65536).wf = false := by decide

theorem test_wf_weaves : (Instr.defineWeave 256 1 1 [true]).wf = false ∧ (Instr.defineWeave 0 256 0 []).wf = false ∧
    (Instr.defineWeave 0 0 256 []).wf = false ∧ (Instr.defineWeave 0 2 1 [true]).wf = false ∧
    (Instr.readWeave 256).wf = false := by decide

theorem test_wf_harness : (Instr.setSection 256 none).wf = false ∧
    (Instr.setSection 0 (some (.figure 65536 0 .straight .ascending 0 0 0))).wf = false ∧
    (Instr.setSection 0 (some (.fixed 0 0 256 0))).wf = false ∧ (Instr.setSection 0 (some (.down 0 65536))).wf = false ∧
    (Instr.setDeadList [65536]).wf = false ∧ (Instr.setDeadList (List.replicate 129 0)).wf = false ∧
    (Instr.addDeadHook 65536).wf = false ∧ (Instr.removeDeadHook 65536).wf = false := by decide +kernel

theorem test_wf_weft : (Instr.setFeeder 256 .keep none).wf = false ∧ (Instr.setFeeder 0 .keep (some 256)).wf = false ∧
    (Instr.restoreFeeder 256).wf = false ∧ (Instr.setGroup 256 none none .single).wf = false ∧
    (Instr.setGroup 0 (some 255) none .single).wf = false ∧ (Instr.setGroup 0 none (some 255) .single).wf = false ∧
    (Instr.readWeft .d 0 0 false false).wf = false ∧ (Instr.feederState 256 .out).wf = false := by decide

theorem test_wf_chain : (Instr.censusResult (some 0)).wf = false ∧
    (Instr.hookTestEnd (List.replicate 97 ⟨.intact, .intact, .intact, .intact⟩)).wf = false ∧
    (Instr.readModules [256]).wf = false ∧ (Instr.readModules (List.replicate 256 0)).wf = false ∧
    (Instr.statusRefresh [256]).wf = false ∧ (Instr.statusRefresh (List.replicate 256 0)).wf = false ∧
    (Instr.refreshCompletion (List.replicate 97 .good)).wf = false ∧ (Instr.setEchoBudget 256).wf = false ∧
    (Instr.transferCompletion (List.replicate 97 ⟨[], .good⟩)).wf = false ∧
    (Instr.transferCompletion [⟨[true], .good⟩]).wf = false := by decide +kernel

theorem test_wf_program : (Instr.readHistory 256 1).wf = false ∧ (Instr.readHistory 0 256).wf = false ∧
    (Instr.readHistory 0 0).wf = false ∧ (Instr.queueChange 256 0 .nextPick false).wf = false ∧
    (Instr.queueChange 0 65536 .nextPick false).wf = false ∧ (Instr.queueChange 0 0 (.atMark 65536) false).wf = false ∧
    (Instr.queueChange 0 0 (.atCount 65536) false).wf = false ∧ (Instr.setMark 256 .off 0 0 false false).wf = false := by
  decide

theorem test_wf_setGuard (e c : Vector Bool 13) : (Instr.setGuard ⟨e, c, .hold, 256, 0, 1⟩).wf = false ∧
    (Instr.setGuard ⟨e, c, .hold, 0, 0, 256⟩).wf = false := by
  constructor <;> rfl

/-! ### Single steps, with the values of the worked examples -/

/-- Section 1.2: an early forward crossing from 717 arms all five angles. -/
theorem test_encoderStep_crossing : (after (.encoderStep .forward true) (before 718 turning)).ang.count = 0 ∧
    (after (.encoderStep .forward true) (before 718 turning)).ang.armed = SchedAngle.all := by decide +kernel

/-- Section 1.2: a step from 721 without the mark brings 2, UNINDEXED, one angle fault. -/
theorem test_encoderStep_overdue : (after (.encoderStep .forward false) (before 722 turning)).ang.count = 2 ∧
    (after (.encoderStep .forward false) (before 722 turning)).ang.index = .unindexed ∧
    (after (.encoderStep .forward false) (before 722 turning)).ang.faultTotal = 1 := by decide +kernel

/-- Section 2.11: a design of 1200 by 4000 takes 74 blocks and leaves 182. -/
theorem test_defineDesign : (after (.defineDesign 0 1200 4000 (Vector.replicate 16 0)) State.reset).fst.free = 182 ∧
    ((after (.defineDesign 0 1200 4000 (Vector.replicate 16 0)) State.reset).slot 0).blocks = List.range 74 := by
  decide +kernel

/-- Section 2.11: the needs of the other designs. -/
theorem test_blocksNeeded : blocksNeeded 3000 2000 = 92 ∧ blocksNeeded 600 9000 = 84 ∧ blocksNeeded 4096 1250 = 79 := by
  decide

/-- Section 2.11: where card 1000 at column 0 and the last cell of a design across a gap lie. -/
theorem test_place : ∀ blocks : List Nat, blocks = List.range 74 ++ [250, 251, 252, 253, 254] →
    (Slot.place { Slot.reset with blocks := blocks } (1000 * 4104 + 8)) = (some 62, 40776) ∧
    (Slot.place { Slot.reset with blocks := blocks } (1249 * 4104 + 8 + 4095)) = (some 254, 18191) := by
  intro b h; subst h; decide +kernel

/-- Section 3.7: steps and columns of a straight and of a point tie. -/
theorem test_designColumn : designColumn .straight .ascending 0 240 1200 233 = 233 ∧
    designColumn .point .descending 1199 121 1200 6 = 1193 ∧ designColumn .point .descending 1199 121 1200 120 = 1079 ∧
    designColumn .point .descending 1199 121 1200 121 = 1080 ∧
    designColumn .point .descending 1199 121 1200 239 = 1198 := by decide

/-- Section 4.1: SELECT-DESIGN with start card 1 resolves to card 2; the commits step through repeats, void cards and a
wrap. -/
theorem test_selectDesign : (after (.selectDesign 2 1) unloaded).seq.cursor = some cur ∧
    (after (.selectDesign 2 1) unloaded).seq.state = .presenting := by decide +kernel

theorem test_advance : ready.advance cur = (⟨2, 3, 0, 0, 1, 101⟩, false) ∧
    ready.advance ⟨2, 3, 0, 0, 1, 101⟩ = (⟨2, 3, 1, 0, 2, 102⟩, false) ∧
    ready.advance ⟨2, 3, 2, 0, 3, 103⟩ = (⟨2, 0, 0, 1, 4, 104⟩, true) ∧
    ready.advance ⟨2, 0, 1, 1, 5, 105⟩ = (⟨2, 2, 0, 1, 6, 106⟩, false) := by decide +kernel

/-- Section 4.9, A_close with an arrival: the pick is committed and the cursor advances. -/
theorem test_close : (after (.encoderStep .forward false) (window (before 520 running))).seq.cursor = some stagedCur ∧
    ((after (.encoderStep .forward false) (window (before 520 running))).seq.history.map (·.cursor)) = [cur] := by
  decide +kernel

/-- Section 5.9: A_close without an arrival counts a failure and brings GUARD. -/
theorem test_close_missing :
    (after (.encoderStep .forward false)
      { before 520 running with wft := { oneFeeder with window := some 100 } }).seq.state = .guard ∧
    ((after (.encoderStep .forward false)
      { before 520 running with wft := { oneFeeder with window := some 100 } }).wft.feeders.get 3).failures = 1 := by
  decide +kernel

/-- Section 6.10: a mismatch of one module spends one unit of the budget. -/
theorem test_transferCompletion :
    (after (.transferCompletion [⟨true :: List.replicate 127 false, .good⟩]) (withTransfer (.shifting 101) (staged running))).hcc.budget
      = 7 ∧
    (after (.transferCompletion [⟨List.replicate 128 false, .good⟩])
      (withTransfer (.shifting 101) (staged running))).hcc.transfer = .shifted 101 := by decide +kernel

/-- Chapter 7: the TAKE completes, and the staged pick is the latched one. -/
theorem test_takeCompletion :
    (after .takeCompletion (withTransfer (.taking 101) (staged running))).latchedBelongs = true := by decide +kernel

/-- Chapter 7: FORWARD from the start zone, and outside it. -/
theorem test_motionForward : (after .motionForward ready).seq.state = .running ∧
    ((after .motionForward { ready with ang := { ready.ang with count := 360 } }).dlk.response.map (·.status)) =
      some .wrongAngle := by decide +kernel

/-- Section 9.7: an onset of the warp stop in READY brings GUARD without counting. -/
theorem test_filterTimerExpiry :
    (after .filterTimerExpiry { ready with grd := { ready.grd with rawWarp := true, filterTimer := some 20 } }).seq.state =
      .guard ∧
    (after .filterTimerExpiry { ready with grd := { ready.grd with rawWarp := true, filterTimer := some 20 } }).grd.count =
      0 := by decide +kernel

/-- Section 10.7: a break during a commit scan suppresses the response; the scan still ends in VALID. -/
theorem test_lineBreak :
    (after (.lineBreak .p) (busyLink .atOwner ready)).plk.suppressed = true ∧
    (after (.lineBreak .p) (busyLink .sending ready)).plk.outstanding = none := by decide +kernel

/-- R190: a READ-SCHEDULE frame is taken from its characters and answered with the power-on schedule. -/
theorem test_frame : (after (.frameError .p (frameChars 0x11 [] (frameCheck 0x11 []))) State.reset).plk.response =
    some ⟨.ok, [40, 0, 104, 1, 8, 2, 28, 2, 108, 2, 10, 20]⟩ := by decide +kernel

/-- R180: an overlapping frame that starts before READ-NOTICES gathers is returned and then cleared; the receiver is
discarding it. -/
theorem test_readNotices_overlapped :
    (after (.readNotices .d [] ⟨true, true⟩) ready).dlk.response = some ⟨.ok, [0, 0, 0, 0, 0, 0, 0, 0, 1, 0]⟩ ∧
    (after (.readNotices .d [] ⟨true, true⟩) ready).dlk.errors = 0 ∧
    (after (.readNotices .d [] ⟨true, true⟩) ready).dlk.rx = .discarding := by decide +kernel

/-- R143, R110: RESET-SEQUENCER during a TAKE leaves no slot held, and the record is CLOSED once the TAKE completes. -/
theorem test_resetSequencer_taking :
    (∀ i, ((after .resetSequencer (withTransfer (.taking 101) (staged running))).slot i).held = false) ∧
    (after .resetSequencer (withTransfer (.taking 101) (staged running))).hcc.transfer = .taking 101 ∧
    (after .takeCompletion (after .resetSequencer (withTransfer (.taking 101) (staged running)))).hcc.latched = .closed := by
  decide +kernel

/-- GUARD or HALTED at rest, while a map write is owed its presentation. -/
def owing (q : SeqState) : State :=
  let s := inState q .none .atRest ready
  { s with seq := { s.seq with representOwed := .nextTake } }

/-- R140: a guard exit goes to READY, for the pick belongs. -/
theorem test_guardExit : (guardExit (owing .guard)).seq.state = .ready ∧
    (after .stop (inState .guard .none .atRest ready)).seq.state = .ready := by decide +kernel

/-- R52: after it the presentation owed to a map write follows; CLEAR-HALT returns the state of the exit. -/
theorem test_guardExit_owed : (after .stop (owing .guard)).seq.state = .presenting ∧
    (after .stop (owing .guard)).seq.present = some ⟨cur, .expanding⟩ ∧
    (after .clearHalt (owing .halted)).seq.state = .presenting ∧
    (after .clearHalt (owing .halted)).plk.response = some ⟨.ok, [2]⟩ := by decide +kernel

/-- R13: a reverse step restarts the stall timer, and a step arms an expired watch again, also at rest. -/
theorem test_encoderStep_stall :
    (after (.encoderStep .reverse true)
      { running with ang := { running.ang with stallWatch := .armed, stallTimer := some 1 } }).ang.stallTimer = some 200 ∧
    (after (.encoderStep .forward false) { inState .running .forward .atRest ready with
      ang := { ready.ang with stallWatch := .expired, stallTimer := none } }).ang.stallWatch = .armed := by decide +kernel

/-- R52: a TAKE older than the map write leaves the presentation owed to the next. -/
theorem test_takeCompletion_owed :
    (after .takeCompletion { withTransfer (.taking 101) (staged running) with
      seq := { running.seq with representOwed := .afterTake } }).seq.representOwed = .nextTake ∧
    (after .takeCompletion { withTransfer (.taking 101) (staged running) with
      seq := { running.seq with representOwed := .nextTake } }).seq.representOwed = .no := by decide +kernel

/-- R190: with a wrong check it is refused FRAME-ERROR and counted. -/
theorem test_frameError :
    (after (.frameError .p (frameChars 0x11 [] (frameCheck 0x11 [] + 1))) State.reset).plk.response = some ⟨.frameError, []⟩ ∧
    (after (.frameError .p (frameChars 0x11 [] (frameCheck 0x11 [] + 1))) State.reset).plk.errors = 1 := by decide +kernel

/-- The queue: the first command in front runs first. -/
theorem test_step : ∃ t, step { State.reset with pending := [.setEchoBudget 5, .readStatus] } = .next t ∧
    t.pending = [.readStatus] ∧ t.hcc.budget = 5 := ⟨_, rfl, by decide +kernel, by decide +kernel⟩

/-! ### The hypotheses of the statements can be met

One theorem a statement, named after it; the clauses in the order of the statement, at boundary values. -/

/-- A sound state in which a command waits. -/
def waiting : State := { ready with pending := [.motionForward] }

/-- Slot 1 LOADING with the design of the example. -/
def loading : State :=
  { ready with fst := { ready.fst with slots := upd ready.fst.slots 1 ⟨.loading, some sixCards, [1], none, false, Refs.zero⟩ } }

/-- Slot 1 VALID and unheld. -/
def idleSlot : State :=
  { ready with fst := { ready.fst with slots := upd ready.fst.slots 1 ⟨.valid, some sixCards, [1], some 3, false, Refs.zero⟩ } }

/-- Sections 0 and 15, FIXED, and section 3, FIGURE; hook 3 dead. -/
def harness : Hmp where
  sections := upd (upd (upd Hmp.reset.sections 0 (some (.fixed 0 7 6 1))) 15 (some (.down 100 127))) 3
    (some (.figure 8 23 .point .descending 1 2 3))
  dead := [3]

/-- Feeder 3 in another state. -/
def feeder3 (x : Feeder) (s : State) : State := { s with wft := { s.wft with feeders := upd s.wft.feeders 3 x } }

/-- The pending plan changed. -/
def withPlan (p : Plan) (s : State) : State :=
  { s with hcc := { s.hcc with latched := .pick p (List.replicate 128 false) } }

/-- The history entry of `cur`. -/
def entry : HistEntry := ⟨cur, some 3, none, [], none, none, false, false⟩

/-- The pick of `cur` woven, the next one latched. -/
def woven (s : State) : State :=
  { withPlan ⟨stagedCur, some 3, none, 5, true, false⟩ s with
    seq := { s.seq with cursor := some stagedCur, serial := 101, history := [entry], woven := 1 }
    fst := store ⟨1, 0, 1, 1, 0⟩ }

/-- A change queued for slot 2. -/
def queued (c : Condition) (r : Option Nat) (s : State) : State :=
  { s with chu := { s.chu with queue := [⟨17, 2, 0, c, r, true⟩], nextId := 18 } }

/-- A queue entry for slot 2. -/
def change (id : Half) : Change := ⟨id, 2, 0, .nextPick, none, false⟩

/-- Every trigger enabled but those that may be disabled. -/
def fewest : GuardSetting :=
  ⟨Vector.ofFn fun t => !(Trigger.all.getD t.1 .historyEnd).mayDisable, Vector.replicate 13 false, .close, 15, 0, 255⟩

/-- Every trigger enabled. -/
def most : GuardSetting := ⟨Vector.replicate 13 true, Vector.replicate 13 true, .hold, 0, 1000, 1⟩

theorem witness_StepRunsFrontCommand : State.reset.pending = [] := rfl

theorem waiting_steps : ∃ t, step waiting = .next t := ⟨_, rfl⟩

theorem witness_StepKeepsTrackerSound : waiting.trackerSound ∧ ∃ t, step waiting = .next t :=
  ⟨by unfold State.trackerSound; decide +kernel, waiting_steps⟩

theorem canonical_waiting : waiting.contentsCanonical := by
  intro i
  match i with
  | ⟨2, _⟩ => exact ⟨rfl, rfl⟩
  | ⟨0, _⟩ | ⟨1, _⟩ | ⟨3, _⟩ | ⟨4, _⟩ | ⟨5, _⟩ | ⟨6, _⟩ | ⟨7, _⟩ => exact trivial

theorem witness_StepKeepsContentsCanonical : waiting.contentsCanonical ∧ ∃ t, step waiting = .next t :=
  ⟨canonical_waiting, waiting_steps⟩

theorem witness_StepKeepsStoreAccounted : waiting.storeAccounted ∧ ∃ t, step waiting = .next t :=
  ⟨by unfold State.storeAccounted; decide +kernel, waiting_steps⟩

theorem witness_StepKeepsHarnessSound :
    ({ waiting with hmp := harness } : State).harnessSound ∧ ∃ t, step { waiting with hmp := harness } = .next t :=
  ⟨by unfold State.harnessSound; decide +kernel, ⟨_, rfl⟩⟩

theorem witness_StepKeepsHistorySound : (woven waiting).cursorPresent ∧ (woven waiting).historySound ∧
    ∃ t, step (woven waiting) = .next t := by
  refine ⟨by unfold State.cursorPresent; decide, ⟨by decide, by decide, by decide, ?_⟩, ⟨_, rfl⟩⟩
  intro c hc
  cases hc
  refine ⟨rfl, ?_⟩
  intro e he
  cases he
  rfl

theorem witness_StepKeepsCountersBounded : (∃ t, step waiting = .next t) ∧ waiting.queueBounded ∧ waiting.weftSound ∧
    waiting.budgetSound :=
  ⟨waiting_steps, by unfold State.queueBounded; decide, by unfold State.weftSound; decide +kernel,
    by unfold State.budgetSound; decide⟩

theorem witness_StepKeepsGuardSound : waiting.guardSound ∧ ∃ t, step waiting = .next t :=
  ⟨⟨by intro t; cases t <;> decide, by decide, by decide, by decide⟩, waiting_steps⟩

theorem witness_StepKeepsStopRequestSound : waiting.stopRequestSound ∧ ∃ t, step waiting = .next t :=
  ⟨by unfold State.stopRequestSound; decide, waiting_steps⟩

theorem witness_StepKeepsAttentionSound : waiting.attentionSound ∧ ∃ t, step waiting = .next t :=
  ⟨by intro l; cases l <;> decide, waiting_steps⟩

theorem witness_StepKeepsHoldsSound : waiting.holdsSound ∧ ∃ t, step waiting = .next t :=
  ⟨⟨by unfold State.holdsExact; decide +kernel, by decide +kernel, fun h => absurd h (by decide)⟩, waiting_steps⟩

/-- READY on its latched pick, with a feeder READY for it and a command waiting. -/
theorem witness_StepKeepsPlansReady : (waiting.cursorPresent ∧ waiting.historySound ∧ waiting.guardSound) ∧
    waiting.presentSound ∧ waiting.plansReady ∧ ∃ t, step waiting = .next t := by
  have hp : waiting.pendingPlan = some plan := by decide +kernel
  refine ⟨⟨by unfold State.cursorPresent; decide, ⟨by decide, by decide, by decide, ?_⟩, ?_⟩, ?_, ⟨?_, ?_⟩, waiting_steps⟩
  · intro c hc; cases hc; exact ⟨rfl, fun e he => nomatch he⟩
  · exact ⟨by intro t; cases t <;> decide, by decide, by decide, by decide⟩
  · exact {
      waiting := fun h => absurd h (by decide)
      present := fun h => absurd rfl h
      stage := fun _ h => nomatch h
      filling := fun h => absurd rfl h
      guarded := fun h => absurd h (by decide)
      complete := fun ⟨_, h⟩ => nomatch h
      released := fun h => absurd h (by decide)
      unloaded := fun h => absurd h (by decide)
      ready := fun _ => ⟨fun _ _ h => Or.inr (by cases h; rfl), fun ⟨_, h⟩ => nomatch h⟩
      finding := fun h => absurd h (by decide)
      taken := fun ⟨_, h⟩ => nomatch h }
  · intro p f h hf
    rw [hp] at h
    cases h
    cases hf
    decide
  · exact fun _ _ h => nomatch h

theorem witness_BusyLinkDropsRequests : Instr.readStatus.asRequest = some (.p, .readStatus) ∧
    (({ ready with plk := { ready.plk with rx := .discarding } } : State).link .p).rx = .discarding ∧
    ((busyLink .sending ready).link .p).rx = .hunting ∧ ((busyLink .sending ready).link .p).outstanding ≠ none := by decide

/-- Refused by its owner, FRAME-ERROR at the link, and HOOK-TEST refused CHECK-FAILED. -/
theorem witness_RefusedRequestChangesNothing :
    (Instr.setEchoBudget 0).asRequest = some (.p, .setEchoBudget) ∧ (ready.link .p).isOpen = true ∧
    (ready.link .p).response = none ∧
    (∃ t, exec (.setEchoBudget 0) ready = .next t ∧ (t.link .p).response = some ⟨.badArgument, []⟩) ∧
    (∃ t, exec (.defineWeave 0 2 1 [true]) ready = .next t ∧ (t.link .p).response = some ⟨.frameError, []⟩) ∧
    (∃ t, exec .hookTest { unloaded with hcc := Hcc.reset } = .next t ∧ (t.link .p).response = some ⟨.checkFailed, []⟩) ∧
    (Instr.readNotices .w [.guardLeft] ⟨true, true⟩).asRequest = some (.w, .readNotices) ∧
    ∃ t, exec (.readNotices .w [.guardLeft] ⟨true, true⟩) ready = .next t ∧ (t.link .w).response = some ⟨.badArgument, []⟩ :=
  ⟨by decide, by decide, by decide, ⟨_, rfl, by decide +kernel⟩, ⟨_, rfl, by decide +kernel⟩, ⟨_, rfl, by decide +kernel⟩,
    by decide, ⟨_, rfl, by decide +kernel⟩⟩

theorem witness_ReadRequestsChangeNothing : ready.plk.isOpen = true ∧ ready.dlk.isOpen = true ∧ ready.wlk.isOpen = true ∧
    ready.wft.withheld = false ∧ ({ ready with wft := { ready.wft with withheld := true } } : State).wft.withheld = true := by
  decide

theorem witness_ReadNoticesClearsNamedKinds : (ready.link .w).isOpen = true ∧
    (∃ k ∈ [NoticeKind.guardLeft], carries .w k = false) ∧
    (∀ k ∈ [NoticeKind.guardEntered, .windowInterrupted, .planChanged], carries .w k = true) := by decide

theorem witness_SetNoticeMaskSetsAttention : (ready.link .d).isOpen = true ∧
    (∃ k ∈ [NoticeKind.guardEntered, .planChanged], carries .d k = false) ∧
    (∀ k ∈ [NoticeKind.guardEntered, .guardLeft, .halted, .readyChanged], carries .d k = true) := by decide

/-- The D-link is open, with a refusal and without one. -/
theorem witness_ReadinessReportsForwardRefusal : ready.dlk.isOpen = true ∧
    (after .readiness ready).dlk.response = some ⟨.ok, [2, 0, 0x78, 100, 0, 255]⟩ ∧ running.dlk.isOpen = true ∧
    (after .readiness running).dlk.response = some ⟨.ok, [3, 1, 0x68, 100, 0, 2]⟩ := by decide +kernel

theorem witness_NamedReadsReturnContents : ready.plk.isOpen = true ∧ (ready.slot 2).state ≠ .empty ∧
    ready.design 2 = some sixCards ∧ (1 ≤ 8000 ∧ 8000 ≤ 8000) ∧ (1 ≤ 512 ∧ 512 ≤ 512) ∧ (ready.slot 7).state = .empty ∧
    (8 ≤ 8 ∨ 1 = 0 ∨ 8000 < 1) ∧ (8 ≤ 0 ∨ 0 = 0 ∨ 512 < 0) ∧ (8 ≤ 0 ∨ 513 = 0 ∨ 512 < 513) ∧ 32 ≤ 32 := by decide +kernel

theorem witness_ClearingReadsReturnOldValues : (ready.link .p).isOpen = true ∧ (ready.link .d).isOpen = true ∧
    (ready.link .w).isOpen = true ∧ ¬((0 : BitVec 8) = 0 ∧ (0 : BitVec 8) = 0 ∧ false = false ∧ true = false) ∧
    ((0 : BitVec 8) = 0 ∧ (0 : BitVec 8) = 0 ∧ false = false ∧ false = false) ∧ (∀ m ∈ [0, 95], m < 96) ∧
    ∃ m ∈ [96], 96 ≤ m := by decide

theorem witness_ForwardGrantedAfterChecks : ready.dlk.isOpen = true := rfl

theorem witness_FindAndPositionGranted : ready.dlk.isOpen = true := rfl

/-- STOPPING with the shaft at rest or about to be. -/
def stopping : State := inState .stopping .none .atRest ready

/-- STOPPING with a scheduled job for the cursor pick. -/
def scheduled : State :=
  { staged stopping with
    xpe := ⟨some ⟨.schedule, stagedCur, 128⟩, .filling ⟨stagedCur, some 3, none, 5, false, false⟩⟩ }

/-- The clauses of `restTaken`, in their order: the cursor pick latched and nothing staged; a TAKE in progress; a complete
staged pick; a scheduled job; another pick latched; a window without arrival; with a failure report; with an arrival. -/
theorem witness_restTaken :
    (stopping.wft.window = none ∧ stopping.latchedBelongs = true ∧ stopping.xpe = ⟨none, .empty⟩) ∧
    ((withTransfer (.taking 101) (staged stopping)).takes ∧ ¬((staged stopping).xpe = ⟨none, .empty⟩)) ∧
    ((staged stopping).seq.present = none ∧ (staged stopping).seq.cursor = some stagedCur ∧
      (staged stopping).xpe.staging =
        .complete ⟨stagedCur, some 3, none, 5, true, false⟩ (List.replicate 128 false) ∧
      (staged stopping).hcc.isTaking = false ∧ (staged stopping).hcc.transfer ≠ .refreshing ∧
      (staged stopping).hcc.census ≠ 0) ∧
    (scheduled.wft.window = none ∧ scheduled.seq.present = none ∧ scheduled.hcc.isTaking = false ∧
      scheduled.xpe = ⟨some ⟨.schedule, stagedCur, 128⟩, .filling ⟨stagedCur, some 3, none, 5, false, false⟩⟩ ∧
      scheduled.seq.cursor = some stagedCur) ∧
    ((withPlan { plan with cursor := stagedCur } stopping).stagedBelongs = false ∧
      (withPlan { plan with cursor := stagedCur } stopping).latchedBelongs = false ∧
      (withPlan { plan with cursor := stagedCur } stopping).seq.cursor = some cur) ∧
    (({ stopping.wft with window := some 100 } : Wft).window = some 100 ∧ stopping.wft.capture = none ∧
      stopping.wft.report = none) ∧
    (({ stopping.wft with window := some 100, report := some ⟨100, .yarnBreak⟩ } : Wft).report = some ⟨100, .yarnBreak⟩ ∧
      Insertion.yarnBreak ≠ .inserted ∧ stopping.grd.isEnabled .weftFail = true) ∧
    ((window stopping).wft.window = some 100 ∧ (window stopping).wft.capture = some 455 ∧
      (window stopping).wft.report = none ∧ (window stopping).pendingPlan = some plan ∧
      (window stopping).grd.isEnabled .markStop = true) := by
  refine ⟨?_, ⟨⟨101, rfl⟩, ?_⟩, ?_⟩ <;> decide +kernel

/-- The clauses of `failureAccounted`: no planned feeder; a count below the limit; a READY feeder whose count reaches it. -/
theorem witness_failureAccounted : (staged running).pendingFeeder = none ∧ running.pendingFeeder = some 3 ∧
    ¬((running.wft.feeders.get 3).state = .ready ∧ running.wft.limit ≤ (running.wft.feeders.get 3).failures + 1) ∧
    (((feeder3 ⟨.ready, false, 2, true, 2⟩ running).wft.feeders.get 3).state = .ready ∧ running.wft.limit ≤ 2 + 1) := by
  decide +kernel

theorem witness_StopEndsGrant : ready.dlk.isOpen = true ∧
    (turning.ang.rest = .moving ∧ turning.seq.state ≠ .running) ∧ (running.ang.rest = .moving ∧ running.seq.state = .running) ∧
    (ready.ang.rest = .atRest ∧ ready.seq.state = .ready) ∧
    ((inState .halted .none .atRest ready).seq.state = .halted ∧ (inState .halted .none .atRest ready).ang.rest = .atRest) ∧
    (({ inState .guard .none .atRest ready with grd := { ready.grd with warp := true } } : State).grd.levelCause = true) ∧
    ((inState .guard .none .atRest ready).seq.state = .guard ∧ (inState .guard .none .atRest ready).grd.levelCause = false) ∧
    (inState .finding .find .atRest ready).seq.state = .finding ∧
    (stopping.ang.rest = .atRest ∧ stopping.seq.state = .stopping) ∧
    (inState .running .forward .atRest ready).seq.state = .running := by decide +kernel

theorem witness_SetScheduleRederivesArmedSet : ready.plk.isOpen = true ∧
    ¬(running.seq.state = .unloaded ∨ running.seq.state = .ready ∧ running.seq.grant = .none) ∧
    (ready.seq.state = .unloaded ∨ ready.seq.state = .ready ∧ ready.seq.grant = .none) ∧
    ¬(Schedule.mk 1 2 3 3 720 1 1).legal ∧ (Schedule.mk 1 2 3 3 719 1 255).legal := by decide

/-- The step counts as no crossing, fault or firing; the three kinds of unsanctioned step; each kind of angle fault; the
distances two and three from the rest angle. -/
theorem witness_EncoderStepMovesShaft_judged :
    (¬farApart 102 ready.ang.restAngle ∧ farApart 103 ready.ang.restAngle ∧ farApart 718 1 ∧ ¬farApart 719 1) ∧
    (¬ready.stepFaults .forward false ∧ ∀ a, ¬ready.stepFires .forward false a) ∧
    ready.stepUnsanctioned .forward false 103 ∧ ¬turning.stepUnsanctioned .forward false 103 ∧
    ({ running with ang := { running.ang with reverseTravel := 2 } } : State).stepUnsanctioned .reverse false 98 ∧
    (inState .finding .find .moving ready).stepUnsanctioned .forward true 0 ∧
    (¬(before 722 (inState .finding .find .moving ready)).stepFaults .forward true ∧
      ∀ a, ¬(before 722 (inState .finding .find .moving ready)).stepFires .forward true a) ∧
    unloaded.seq.state = .unloaded ∧
    (ready.stepFaults .forward true ∧ ready.seq.state.guarded ∧ ready.grd.isEnabled .angleFault = true) ∧
    ({ ready with ang := { ready.ang with indexLevel := true, count := 3 } } : State).stepFaults .reverse false ∧
    ¬({ ready with ang := { ready.ang with indexLevel := true, count := 2 } } : State).stepFaults .reverse false ∧
    (before 722 ready).stepFaults .forward false ∧ ¬(before 0 ready).stepFaults .reverse false ∧
    ({ ready with ang := { ready.ang with count := -2 } } : State).stepFaults .reverse false ∧
    (before 620 ready).stepFires .forward false .xfer := by
  refine ⟨by decide, ⟨by decide, fun a => by cases a <;> decide⟩, by decide, by decide, by decide, by decide,
    ⟨by decide, fun a => by cases a <;> decide⟩, by decide, by decide, by decide, by decide, by decide, by decide, by decide,
    by decide⟩

/-- R13: a watch that is off, armed or expired at the step; a step that stays in RUNNING, and one that enters guard. -/
theorem witness_EncoderStepMovesShaft_stall : ready.ang.stallWatch = .off ∧
    (after .motionForward ready).ang.stallWatch = .armed ∧ (after .motionForward ready).seq.state.guarded ∧
    (after (.encoderStep .reverse false) (after .motionForward ready)).seq.state = .running ∧
    ({ ready.ang with stallWatch := .expired } : Ang).stallWatch ≠ .off ∧
    running.ang.rest = .moving ∧ (after (.encoderStep .forward true) running).seq.state = .guard := by decide +kernel

/-- A crossing each way, the ends of the counted range, and the wrap while UNINDEXED. -/
theorem witness_EncoderStepMovesShaft : ready.ang.indexLevel = false ∧
    ({ ready.ang with indexLevel := true } : Ang).indexLevel = true ∧ ready.ang.index = .indexed ∧
    (before 721 ready).ang.count ≤ 720 ∧ (before 722 ready).ang.count = 721 ∧ -1 ≤ (before 0 ready).ang.count ∧
    ({ ready.ang with count := -2 } : Ang).count = -2 ∧ State.reset.ang.index = .unindexed ∧
    0 ≤ State.reset.ang.count ∧ State.reset.ang.count ≤ 719 := by decide +kernel

theorem witness_DefineDesignTakesLowestFreeBlocks : ready.plk.isOpen = true ∧ 8 ≤ 8 ∧ (ready.slot 2).state ≠ .empty ∧
    (ready.slot 7).state = .empty ∧
    ¬(8 ≤ 7 ∧ 7 ≤ 6144 ∧ 1 ≤ 1 ∧ 1 ≤ 16384 ∧ ∀ v ∈ (Vector.replicate 16 31).toList, v ≤ 31) ∧
    (8 ≤ 6144 ∧ 6144 ≤ 6144 ∧ 1 ≤ 16384 ∧ 16384 ≤ 16384 ∧ ∀ v ∈ (Vector.replicate 16 31).toList, v ≤ 31) ∧
    ready.fst.free < (16384 * (6144 + 8) + 65535) / 65536 ∧
    (8 ≤ 8 ∧ 8 ≤ 6144 ∧ 1 ≤ 1 ∧ 1 ≤ 16384) ∧ (1 * (8 + 8) + 65535) / 65536 ≤ ready.fst.free := by decide +kernel

theorem canonical_loading : loading.contentsCanonical := by
  intro i
  match i with
  | ⟨1, _⟩ | ⟨2, _⟩ => exact ⟨rfl, rfl⟩
  | ⟨0, _⟩ | ⟨3, _⟩ | ⟨4, _⟩ | ⟨5, _⟩ | ⟨6, _⟩ | ⟨7, _⟩ => exact trivial

/-- A run up to the last cell, one of all cards, one past the end, a record out of range, a slot not LOADING. -/
theorem witness_StoreWritesReplaceRun : loading.plk.isOpen = true ∧ loading.contentsCanonical ∧
    (loading.slot 1).state = .loading ∧ loading.design 1 = some sixCards ∧
    (5 < 6 ∧ 7 < 8 ∧ 5 * 8 + 7 + [(3 : BitVec 4)].length ≤ 6 * 8) ∧
    (0 + [CardRecord.initial].length ≤ 6 ∧ ∀ r ∈ [CardRecord.initial], 1 ≤ r.pickRepeat ∧ r.pickRepeat ≤ 4) ∧
    ¬(5 < 6 ∧ 7 < 8 ∧ 5 * 8 + 7 + [(3 : BitVec 4), 3].length ≤ 6 * 8) ∧ 6 < 6 + [CardRecord.initial].length ∧
    (∃ r ∈ [CardRecord.mk (.colour 0) 0 5 false], r.pickRepeat = 0 ∨ 4 < r.pickRepeat) ∧
    (loading.slot 2).state ≠ .loading :=
  ⟨by decide, canonical_loading, by decide, by decide +kernel, by decide, by decide, by decide, by decide, by decide,
    by decide⟩

/-- A scan with a non-void card, and one of a design of one void card. -/
theorem witness_CommitScanDecidesValid : loading.plk.isOpen = true ∧ (loading.slot 1).state = .loading ∧
    (loading.slot 2).state ≠ .loading ∧
    ((after (.commitDesign 1) loading).slot 1).scanning = true ∧
    (∀ j : Fin 8, j < 1 → ((after (.commitDesign 1) loading).slot j).scanning = false) ∧
    (after (.commitDesign 1) loading).design 1 = some sixCards ∧
    (0 < sixCards.height ∧ (sixCards.card 0).void = false ∧ ∀ k, k < 0 → (sixCards.card k).void = true) ∧
    (∀ k, k < 1 → (({ sixCards with height := 1, cards := [(0, ⟨.colour 0, 0, 1, true⟩)] } : Design).card k).void = true) ∧
    ∀ i : Fin 8, (loading.slot i).scanning = false := by decide +kernel

theorem witness_ReopenAndEraseRespectHolds : idleSlot.plk.isOpen = true ∧ (idleSlot.slot 0).state ≠ .valid ∧
    ((idleSlot.slot 2).state = .valid ∧ (idleSlot.slot 2).held = true) ∧
    ((idleSlot.slot 1).state = .valid ∧ (idleSlot.slot 1).held = false) ∧ (idleSlot.slot 0).state = .empty ∧
    (loading.slot 1).state = .loading := by decide

theorem witness_MapWritesInUnloaded : ready.plk.isOpen = true ∧ 12287 < 12288 ∧ 128 < (List.range 129).length ∧
    ready.heldNaming 5 ≠ [] ∧ ({ ready with hmp := harness } : State).heldNaming 6 = [] ∧
    ({ ready with hmp := harness } : State).hmp.fixedNaming 6 ≠ [] ∧ unloaded.seq.state = .unloaded ∧
    unloaded.hmp.fixedNaming 5 = [] ∧ unloaded.heldNaming 5 = [] ∧ (12287 ∉ harness.dead ∧ 3 ∈ harness.dead) ∧
    128 ≤ (List.range 128).length ∧ harness.dead.Pairwise (· < ·) ∧
    (running.seq.state ≠ .unloaded ∧ ¬(running.seq.state = .ready ∧ running.seq.grant = .none)) := by decide +kernel

theorem witness_MapWritesInReadyRepresent : ready.plk.isOpen = true ∧ ({ ready with hmp := harness } : State).idleReady ∧
    ready.seq.cursor = some cur ∧ sectionArgOk (some (.fixed 0 12287 31 31)) = true ∧
    ((∀ h ∈ [0, 12287], h ≤ 12287) ∧ [0, 12287].Pairwise (· < ·)) ∧ harness.dead.Pairwise (· < ·) ∧
    ({ ready with hmp := harness } : State).heldNaming 6 = [] ∧ harness.fixedNaming 6 ≠ [] :=
  ⟨by decide, by unfold State.idleReady; decide +kernel, by decide, by decide, by decide, by decide, by decide +kernel,
    by decide +kernel⟩

/-- A dead hook; a hook in no section; the ends of a DOWN, a FIXED and a FIGURE section. -/
theorem witness_HookLiftFollowsMap : 3 ∈ harness.dead ∧
    (∀ n : Fin 16, ∀ r ∈ harness.sections.get n, ¬(firstHook r ≤ 24 ∧ 24 ≤ lastHook r)) ∧
    (harness.sections.get 15 = some (.down 100 127) ∧
      ∀ m : Fin 16, m < 15 → ∀ r ∈ harness.sections.get m, ¬(firstHook r ≤ 127 ∧ 127 ≤ lastHook r)) ∧
    harness.sections.get 0 = some (.fixed 0 7 6 1) ∧ 7 ∉ harness.dead ∧
    (harness.sections.get 3 = some (.figure 8 23 .point .descending 1 2 3) ∧
      ∀ m : Fin 16, m < 3 → ∀ r ∈ harness.sections.get m, ¬(firstHook r ≤ 23 ∧ 23 ≤ lastHook r)) ∧
    ready.design cur.slot = some sixCards ∧ 1 ≤ sixCards.width ∧
    sixCards.map.get (sixCards.cell 2 0).toFin = (5 : Fin 32).1 := by decide +kernel

theorem witness_FeederRequestsFollowTables : ready.plk.isOpen = true ∧ ready.wlk.isOpen = true ∧
    (∃ n, some 8 = some n ∧ (n = 0 ∨ 7 < n)) ∧ (∀ n, some 7 = some n → 1 ≤ n ∧ n ≤ 7) ∧
    ((feeder3 ⟨.suspended, true, 3, true, 3⟩ ready).wft.feeders.get 3).state = .suspended ∧
    (((feeder3 ⟨.off, true, 3, true, 3⟩ ready).wft.feeders.get 3).state = .off ∧
      ((feeder3 ⟨.off, true, 3, true, 3⟩ ready).wft.feeders.get 3).mark = true) ∧
    (ready.wft.feeders.get 3).state = .ready ∧
    ((ready.wft.feeders.get 7).state = .off ∧ (ready.wft.feeders.get 7).mark = false) :=
  ⟨by decide, by decide, ⟨8, rfl, by decide⟩, by intro n h; cases h; decide, by decide, by decide, by decide, by decide⟩

/-- The plans planned again: both name feeder 3, of two cards of one group or of FEEDER cards; both name NONE. The limits
that SET-FEEDER may carry, and RUNNING without a READY feeder. -/
theorem witness_FeederChangesReplan_again :
    (ready.link .w).isOpen = true ∧ (ready.link .p).isOpen = true ∧ (1 ≤ 1 ∧ 1 ≤ 7) ∧ (1 ≤ 7 ∧ 7 ≤ 7) ∧
    ready.pendingPlan = some plan ∧ plan.feeder = some 3 ∧
    (∃ q, (staged running).xpe.staging.plan = some q ∧ q.feeder = some 3) ∧
    (Option.map PlannedGroup.group (some ⟨1, .primaryNext⟩) = some 1 ∧
      Option.map PlannedGroup.group (some ⟨1, .partnerNext⟩) = some 1) ∧
    (({ Feeder.reset with mark := false } : Feeder).state = .off ∧ Feeder.reset.mark = false) ∧
    (Feeder.mk .suspended true 3 true 3).state = .suspended ∧
    (running.seq.state = .running ∧ ((feeder3 Feeder.reset running).wft.choose (.feeder 3)).feeder = none) :=
  ⟨by decide, by decide, by decide, by decide, by decide +kernel, by decide, ⟨_, rfl, by decide⟩, by decide, by decide,
    by decide, by decide⟩

/-- A plan names the feeder that goes; a plan of NONE waits for the feeder that comes. -/
theorem witness_FeederChangesReplan : (ready.wft.feeders.get 3).state = .ready ∧
    (∃ p, (ready.pendingPlan = some p ∨ ready.xpe.staging.plan = some p) ∧ p.feeder = some 3) ∧
    ((feeder3 Feeder.reset (withPlan { plan with feeder := none } ready)).wft.feeders.get 3).mark = false ∧
    (feeder3 Feeder.reset (withPlan { plan with feeder := none } ready)).seq.state ≠ .running ∧
    (feeder3 Feeder.reset (withPlan { plan with feeder := none } ready)).pendingPlan = some { plan with feeder := none } ∧
    ((feeder3 Feeder.reset ready).cardOf cur).weft = .feeder 3 ∧
    ((feeder3 ⟨.suspended, true, 3, true, 3⟩ ready).wft.feeders.get 3).state = .suspended :=
  ⟨by decide, ⟨plan, Or.inl (by decide +kernel), by decide⟩, by decide, by decide, by decide +kernel, by decide +kernel,
    by decide⟩

/-- Group 1 of feeders 2 and 5, as in section 5.9. -/
def alternating (x y : FeederState) : Wft :=
  { Wft.reset with
    feeders := upd (upd Wft.reset.feeders 2 ⟨x, false, 0, false, 0⟩) 5 ⟨y, false, 0, false, 0⟩
    groups := upd Wft.reset.groups 1 ⟨some 2, some 5, .alternate, .partnerNext⟩ }

theorem witness_PlanningChoosesReadyFeeder : (Wft.reset.groups.get 1).primary = none ∧
    (((alternating .ready .ready).groups.get 1).primary = some 2 ∧ ((alternating .ready .ready).groups.get 1).partner = some 5 ∧
      ((alternating .ready .ready).feeders.get 2).state = .ready ∧ ((alternating .ready .ready).feeders.get 5).state = .ready) ∧
    ((alternating .ready .off).feeders.get 5).state ≠ .ready ∧ ((alternating .suspended .ready).feeders.get 2).state ≠ .ready ∧
    (((alternating .off .suspended).feeders.get 2).state ≠ .ready ∧
      ((alternating .off .suspended).feeders.get 5).state ≠ .ready) := by decide

/-- Section 5.9: from PARTNER-NEXT the partner is planned; with it suspended, the primary, without a toggle. -/
theorem test_choose : ((alternating .ready .ready).choose (.colour 1)).feeder = some 5 ∧
    (((alternating .ready .ready).choose (.colour 1)).wft.groups.get 1).alternation = .primaryNext ∧
    ((alternating .ready .suspended).choose (.colour 1)).feeder = some 2 ∧
    (((alternating .ready .suspended).choose (.colour 1)).wft.groups.get 1).alternation = .partnerNext := by decide

theorem witness_SetGroupReplacesRecord : ready.plk.isOpen = true ∧ 8 ≤ 8 ∧ ¬running.openToSettings ∧ ready.openToSettings ∧
    (∃ n, (some 8 = some n ∨ none = some n) ∧ 8 ≤ n) ∧ (some 1 ≠ none ∧ (some 1 = none ∨ some 1 = some 1)) ∧
    unloaded.openToSettings ∧ unloaded.seq.state = .unloaded ∧
    ready.pendingPlan = some plan ∧
    (withPlan { plan with group := some ⟨1, .primaryNext⟩ } ready).pendingPlan =
      some { plan with group := some ⟨1, .primaryNext⟩ } :=
  ⟨by decide, by decide, by decide, by decide, ⟨8, Or.inl rfl, by decide⟩, by decide, by decide, by decide,
    by decide +kernel, by decide +kernel⟩

theorem witness_WeftReportAnsweredBySerial : ready.wlk.isOpen = true ∧ ready.pendingPlan = some plan ∧
    plan.cursor.serial = 100 ∧
    (∃ x, ({ ready.wft with report := some ⟨100, .yarnBreak⟩ } : Wft).report = some ⟨100, x⟩ ∧ x ≠ .inserted) ∧
    ¬(Insertion.transferFail = .inserted ∧ ∃ x, ready.wft.report = some ⟨100, x⟩ ∧ x ≠ .inserted) ∧
    (∀ e ∈ ready.seq.history, e.cursor.serial ≠ 99) ∧
    ((woven ready).pendingPlan.map (·.cursor.serial) = some 101 ∧ (woven ready).seq.history = [] ++ entry :: [] ∧
      entry.cursor.serial = 100 ∧ entry.suspect = false ∧ (woven ready).seq.state.guarded ∧
      (woven ready).grd.isEnabled .weftFail = true) :=
  ⟨by decide, by decide +kernel, by decide, ⟨.yarnBreak, rfl, by decide⟩, by intro h; exact absurd h.1 (by decide),
    by decide, by decide +kernel⟩

theorem witness_BusTestsBeginAndEnd_begin : unloaded.plk.isOpen = true ∧
    (unloaded.seq.state = .unloaded ∧ unloaded.hcc.transfer = .idle ∧ 1 ≤ unloaded.hcc.census ∧ unloaded.hcc.census ≤ 96) ∧
    ¬(1 ≤ State.reset.hcc.census ∧ State.reset.hcc.census ≤ 96) ∧
    ¬(ready.seq.state = .unloaded ∧ ready.hcc.transfer = .idle) ∧ (∃ m ∈ [96], 96 ≤ m) ∧ (∀ m ∈ [0, 95], m < 96) ∧
    ¬((running.openToSettings ∨ running.seq.state = .guard ∨ running.seq.state = .halted) ∧ running.hcc.transfer = .idle) ∧
    (ready.openToSettings ∧ ready.hcc.transfer = .idle ∧ ready.hcc.census ≠ 0) ∧ State.reset.hcc.census = 0 := by decide

theorem witness_BusTestsBeginAndEnd_end :
    ((after .census unloaded).hcc.busTest = .census ∧ (after .census unloaded).seq.state = .unloaded) ∧
    ((after .census unloaded).hcc.latched.plan = none) ∧ ready.hcc.latched.plan = some plan ∧
    (∃ n, some (136 * 96) = some n ∧ n = 136 * 96 ∧ 1 ≤ 96 ∧ 96 ≤ 96) ∧
    (∀ n, (none : Option Nat) = some n → ¬∃ j, n = 136 * j ∧ 1 ≤ j ∧ j ≤ 96) ∧
    ((after .hookTest unloaded).hcc.busTest = .hookTest ∧ (after .hookTest unloaded).hcc.census = 1) ∧
    (∀ k, k < 1 → ([⟨.intact, .intact, .intact, .intact⟩] : List StageReturn)[k]? =
      some ⟨.intact, .intact, .intact, .intact⟩) ∧
    ([⟨.intact, .changed, .intact, .intact⟩] : List StageReturn)[0]? ≠ some ⟨.intact, .intact, .intact, .intact⟩ ∧
    unloaded.hcc.busTest ≠ .census ∧ unloaded.hcc.busTest ≠ .hookTest :=
  ⟨by decide +kernel, by decide +kernel, by decide +kernel, ⟨136 * 96, rfl, by decide⟩, fun _ h => (nomatch h),
    by decide +kernel, by decide, by decide, by decide, by decide⟩

theorem witness_RefreshCompletionRecordsStatuses : unloaded.hcc.transfer ≠ .refreshing ∧
    (withTransfer .refreshing ready).hcc.transfer = .refreshing ∧ ready.hcc.faultLevel = false ∧
    (after (.refreshCompletion [.good]) (withTransfer .refreshing ready)).hcc.faultLevel = false ∧
    (after (.refreshCompletion [.other]) (withTransfer .refreshing ready)).hcc.faultLevel = true ∧
    (withTransfer .refreshing ready).seq.state.guarded ∧ (withTransfer .refreshing ready).grd.isEnabled .moduleFault = true := by
  decide +kernel

/-- GUARD at rest, a refresh or a transfer in progress, the module fault level active until now. -/
def faulty (x : Transfer) : State :=
  let s := inState .guard .none .atRest (withTransfer x ready)
  { s with hcc := { s.hcc with faultLevel := true }, grd := { s.grd with moduleLevel := true } }

/-- The level falls in GUARD: guard is left, or held by the warp stop. -/
theorem witness_RefreshCompletionRecordsStatuses_guard :
    ((faulty .refreshing).hcc.transfer = .refreshing ∧ (faulty .refreshing).hcc.faultLevel = true ∧
      (faulty .refreshing).seq.state = .guard ∧ (faulty .refreshing).ang.rest = .atRest ∧
      (faulty .refreshing).seq.coasting = false) ∧
    (after (.refreshCompletion [.good]) (faulty .refreshing)).hcc.faultLevel = false ∧
    (after (.refreshCompletion [.good]) (faulty .refreshing)).grd.levelCause = false ∧
    (after (.refreshCompletion [.good]) (faulty .refreshing)).seq.state = .ready ∧
    ({ (faulty .refreshing).grd with warp := true, moduleLevel := false } : Grd).levelCause = true := by decide +kernel

/-- The same at the end of a transfer. -/
theorem witness_TransferCompletionComparesEcho_guard :
    ((faulty (.shifting 100)).hcc.transfer = .shifting 100 ∧ (faulty (.shifting 100)).seq.state = .guard ∧
      (faulty (.shifting 100)).ang.rest = .atRest ∧ (faulty (.shifting 100)).seq.coasting = false ∧
      (faulty (.shifting 100)).hcc.faultLevel = true ∧
      ¬((faulty (.shifting 100)).grd.warp = true ∧ (faulty (.shifting 100)).grd.isEnabled .warpStop = true) ∧
      (faulty (.shifting 100)).seq.present = none) ∧
    (∀ m : Fin 96, m.1 < (faulty (.shifting 100)).hcc.census →
      ([⟨List.replicate 128 false, .good⟩] : List ModuleEcho)[m.1]?.map (·.status) = some .good) ∧
    (after (.transferCompletion [⟨List.replicate 128 false, .good⟩]) (faulty (.shifting 100))).seq.state = .ready := by
  decide +kernel

theorem witness_SetEchoBudgetRefillsCounter : ready.plk.isOpen = true ∧ ¬(1 ≤ 0 ∧ 0 ≤ 255) ∧ ¬(1 ≤ 256 ∧ 256 ≤ 255) ∧
    (1 ≤ 1 ∧ 1 ≤ 255) ∧ (1 ≤ 255 ∧ 255 ≤ 255) ∧
    (withTransfer (.shifting 101) (staged running)).hcc.transfer = .shifting 101 ∧ running.seq.state ≠ .guard := by decide

/-- The job of a PRESENT job that expands. -/
def expanding : State := after (.selectDesign 2 1) unloaded

theorem witness_JobCompletionFillsStaging : ready.xpe.job = none ∧ expanding.xpe.job = some ⟨.present, cur, 128⟩ ∧
    expanding.xpe.staging = .filling { plan with complete := false } ∧
    expanding.seq.present = some ⟨cur, .expanding⟩ ∧ expanding.hcc.census ≠ 0 ∧ expanding.hcc.isTaking = false ∧
    expanding.hcc.transfer ≠ .refreshing ∧ running.seq.present = none := by decide +kernel

theorem witness_TransferCompletionComparesEcho : ready.hcc.transfer = .idle ∧
    (withTransfer (.shifting 101) (staged running)).hcc.transfer = .shifting 101 ∧
    (withTransfer (.shifting 101) (staged running)).seq.state ≠ .guard ∧ running.seq.state.guarded ∧
    running.grd.isEnabled .echoBudget = true ∧ running.grd.isEnabled .moduleFault = true ∧
    (staged running).xpe.staging =
      .complete ⟨stagedCur, some 3, none, 5, true, false⟩ (List.replicate 128 false) := by decide +kernel

theorem witness_TakeCompletionLatchesStaged : ready.hcc.isTaking = false ∧
    (withTransfer (.taking 101) (staged running)).takes ∧
    (withTransfer (.taking 101) (staged running)).xpe.staging =
      .complete ⟨stagedCur, some 3, none, 5, true, false⟩ (List.replicate 128 false) ∧
    running.seq.findWaiting = 0 ∧ running.seq.presentWaiting = false ∧ running.hcc.dropHeld = false ∧
    ({ running.hcc with dropHeld := true } : Hcc).dropHeld = true ∧ running.hcc.holdsReleased = false :=
  ⟨by decide, ⟨101, rfl⟩, by decide +kernel, by decide, by decide, by decide, by decide, by decide⟩

/-- What waits for a TAKE: after RESET-SEQUENCER nothing, or the presentation of a new selection; a PRESENT order of
STOPPING at rest; a find step on a history of one entry and on an empty one; FINDING with STOP taken and without. -/
theorem witness_TakeCompletionLatchesStaged_waiting :
    ((after .resetSequencer (withTransfer (.taking 101) (staged running))).hcc.holdsReleased = true ∧
      (after .resetSequencer (withTransfer (.taking 101) (staged running))).hcc.isTaking = true ∧
      (after .resetSequencer (withTransfer (.taking 101) (staged running))).seq.present = none ∧
      (after .resetSequencer (withTransfer (.taking 101) (staged running))).seq.presentWaiting = false) ∧
    (({ unloaded.seq with presentWaiting := true, cursor := some cur, state := .presenting } : Seq).presentWaiting = true) ∧
    (stopping.seq.cursor = some cur ∧ stopping.seq.state ≠ .running ∧ stopping.seq.present = none ∧
      stopping.seq.findWaiting = 0) ∧
    ((inState .finding .find .moving (woven ready)).seq.history = [] ++ entry :: [] ∧
      (inState .finding .find .moving (woven ready)).seq.state = .finding ∧ ([] : List HistEntry).length + 1 = 1) ∧
    ((inState .finding .find .moving ready).seq.history = [] ∧ ready.grd.isEnabled .historyEnd = true) ∧
    (PresentJob.mk cur .taking).stage = .taking ∧
    ((inState .finding .none .moving ready).seq.grant = .none ∧ ready.seq.runDown = false) ∧
    ¬(inState .finding .find .moving ready).seq.grant = .none := by decide +kernel

/-- FINDING with ENCZ active, on the pick after `cur`. -/
def findingState : State :=
  { inState .finding .find .moving (woven ready) with ang := { ready.ang with rest := .moving, count := 2, indexLevel := true } }

/-- RESET-SEQUENCER met a TAKE, and a design has been selected since. -/
def reselected : State :=
  after (.selectDesign 2 2) (after (.responseSent .p) (after .resetSequencer (withTransfer (.taking 101) (staged running))))

/-- STOP was taken at rest in STOPPING, with a TAKE in progress. -/
def ordered : State := after .stop (withTransfer (.taking 101) (staged stopping))

/-- FINDING during a TAKE of the cursor pick, with a find step waiting. -/
def findTaking : State :=
  after (.encoderStep .reverse false)
    (withTransfer (.taking 101) { findingState with
      xpe := ⟨none, .complete ⟨stagedCur, some 3, none, 5, true, false⟩ (List.replicate 128 false)⟩ })

/-- Each clause on what waits for a TAKE with all its hypotheses together. -/
theorem witness_TakeCompletionLatchesStaged_together :
    (reselected.hcc.transfer = .taking 101 ∧ reselected.hcc.holdsReleased = true ∧ reselected.seq.present = none ∧
      reselected.seq.findWaiting = 0 ∧ reselected.seq.presentWaiting = true ∧
      reselected.seq.cursor = some ⟨2, 2, 0, 0, 0, 102⟩ ∧ reselected.seq.state ≠ .running) ∧
    (ordered.hcc.transfer = .taking 101 ∧ ordered.hcc.holdsReleased = false ∧
      ordered.xpe.staging = .complete ⟨stagedCur, some 3, none, 5, true, false⟩ (List.replicate 128 false) ∧
      ordered.seq.presentWaiting = true ∧ ordered.seq.findWaiting = 0 ∧ ordered.seq.cursor = some stagedCur ∧
      ordered.seq.state ≠ .running ∧ ordered.seq.present = none) ∧
    (findTaking.hcc.transfer = .taking 101 ∧ findTaking.hcc.holdsReleased = false ∧
      findTaking.xpe.staging = .complete ⟨stagedCur, some 3, none, 5, true, false⟩ (List.replicate 128 false) ∧
      findTaking.seq.state = .finding ∧ findTaking.seq.presentWaiting = false ∧ findTaking.seq.findWaiting = 1 ∧
      findTaking.seq.history = [] ++ entry :: [] ∧ ([] : List HistEntry).length + 1 = findTaking.seq.findWaiting ∧
      findTaking.grd.isEnabled .historyEnd = true) := by decide +kernel

/-- The find step waits with a PRESENT job that is TAKING, and on an empty history. -/
theorem witness_TakeCompletionLatchesStaged_finding :
    (({ findTaking.seq with present := some ⟨stagedCur, .taking⟩ } : Seq).present = some ⟨stagedCur, .taking⟩ ∧
      (PresentJob.mk stagedCur .taking).stage = .taking) ∧
    (({ findTaking.seq with history := [] } : Seq).history = [] ∧ 0 < findTaking.seq.findWaiting) := by decide +kernel

theorem witness_SelectDesignSetsCursor : unloaded.plk.isOpen = true ∧ ¬running.openToSettings ∧ unloaded.openToSettings ∧
    (unloaded.slot 0).state ≠ .valid ∧ (unloaded.slot 2).state = .valid ∧ unloaded.design 2 = some sixCards ∧
    sixCards.height ≤ 6 ∧ 5 < sixCards.height ∧ (sixCards.card ((5 + 1) % sixCards.height)).void = false ∧
    (∀ j, j < 1 → (sixCards.card ((5 + j) % sixCards.height)).void = true) ∧ unloaded.xpe = ⟨none, .empty⟩ ∧
    unloaded.hcc.isTaking = false := by decide +kernel

theorem witness_ResetSequencerEmptiesProgram : (running.plk.isOpen = true ∧ running.hcc.isTaking = false) ∧
    (withTransfer (.taking 101) (staged running)).takes ∧ (withTransfer (.taking 101) (staged running)).holdsExact ∧
    waiting.holdsExact ∧ ready.seq.state = .ready :=
  ⟨by decide, ⟨101, rfl⟩, by unfold State.holdsExact; decide +kernel, by unfold State.holdsExact; decide +kernel, rfl⟩

theorem witness_PlainAdvanceStepsCursor : 0 + 1 < (ready.cardOf stagedCur).pickRepeat ∧
    (ready.cardOf cur).pickRepeat ≤ cur.rep + 1 ∧ ready.design cur.slot = some sixCards ∧ cur.card < sixCards.height ∧
    (sixCards.card ((3 + 1 + 2) % sixCards.height)).void = false ∧
    (∀ j, j < 2 → (sixCards.card ((3 + 1 + j) % sixCards.height)).void = true) := by decide +kernel

theorem witness_CloseCommitsPendingPick : (window (before 520 running)).stepsOnto .closing ∧
    (window (before 520 running)).seq.state = .running ∧ (window (before 520 running)).wft.window = some 100 ∧
    (window (before 520 running)).wft.capture = some 455 ∧ (window (before 520 running)).wft.report = none ∧
    (window (before 520 running)).pendingPlan = some plan ∧ running.chu.queue = [] ∧
    (∃ c r, (queued (.atCount 1) (some 1) (window (before 520 running))).chu.queue = c :: r ∧ c.condition = .atCount 1 ∧
      c.remaining = some 1) ∧
    running.grd.isEnabled .markStop = true :=
  ⟨by unfold State.stepsOnto; decide +kernel, by decide, by decide, by decide, by decide, by decide +kernel, by decide,
    ⟨_, _, rfl, rfl, rfl⟩, by decide⟩

theorem witness_FindStepUnwindsNewestEntry : findingState.seq.state = .finding ∧ findingState.seq.grant = .find ∧
    findingState.hcc.isTaking = false ∧ findingState.ang.rest = .moving ∧ findingState.ang.indexLevel = true ∧
    (findingState.ang.index = .indexed → -2 ≤ findingState.ang.count ∧ findingState.ang.count ≤ 2) ∧
    findingState.seq.cursor = some stagedCur ∧ findingState.seq.history = [] ++ [entry] ∧ entry.cursor ≠ stagedCur ∧
    (inState .finding .find .moving ready).seq.history = [] ∧ findingState.grd.isEnabled .historyEnd = true ∧
    ({ entry with applied := some ⟨17, 2, 0, .atCount 3, true⟩ } : HistEntry).applied = some ⟨17, 2, 0, .atCount 3, true⟩ ∧
    [change 18, change 19, change 20, change 21] = [change 18, change 19, change 20] ++ [change 21] ∧
    ({ entry with counted := some 17 } : HistEntry).counted = some 17 ∧
    (findingState.seq.present = none ∧ findingState.xpe = ⟨none, .empty⟩) ∧
    (queued (.atCount 3) (some 2) findingState).chu.queue.length = 1 := by decide +kernel

/-- A_close on a window with a failure report, without an arrival, and without a window; two angles on one count; an early
mark with an angle above it and without one. -/
theorem witness_ScheduleAnglesRaiseEvents_closing :
    ((before 520 running).stepsOnto .closing ∧ running.wft.window = none) ∧
    (∃ o, ({ running.wft with window := some 100, report := some ⟨100, .transferFail⟩ } : Wft).report = some ⟨100, o⟩ ∧
      o ≠ .inserted) ∧
    (({ running.wft with window := some 100 } : Wft).report = none ∧ running.wft.capture = none) ∧
    (running.ang.index = .indexed ∧ running.ang.rest = .moving ∧ (before 721 running).ang.count ≤ 720 ∧
      ¬running.crossesForward .forward false) ∧
    (717 ≤ (before 718 running).ang.count ∧ (before 722 running).ang.count ≤ 721 ∧ running.crossesForward .forward true ∧
      ¬(running.seq.state = .finding ∧ running.seq.grant = .find)) :=
  ⟨⟨by unfold State.stepsOnto; decide +kernel, by decide⟩, ⟨.transferFail, rfl, by decide⟩, by decide, by decide, by decide⟩

/-- A_prep without a READY feeder. -/
theorem witness_ScheduleAnglesRaiseEvents_unavailable :
    (feeder3 Feeder.reset (before 540 running)).stepsOnto .prep ∧
    (feeder3 Feeder.reset (before 540 running)).seq.state = .running ∧
    (feeder3 Feeder.reset (before 540 running)).hcc.isTaking = false ∧
    (feeder3 Feeder.reset (before 540 running)).seq.cursor = some cur ∧
    (feeder3 Feeder.reset (before 540 running)).xpe = ⟨none, .empty⟩ ∧
    ((feeder3 Feeder.reset (before 540 running)).wft.choose
      ((feeder3 Feeder.reset (before 540 running)).cardOf cur).weft).feeder = none ∧
    (after (.encoderStep .forward false) (feeder3 Feeder.reset (before 540 running))).seq.state = .guard :=
  ⟨by unfold State.stepsOnto; decide +kernel, by decide, by decide, by decide, by decide, by decide +kernel,
    by decide +kernel⟩

/-- Each of the four angles with the conditions of its clauses. -/
theorem witness_ScheduleAnglesRaiseEvents :
    (before 40 running).stepsOnto .latch ∧
    ((staged (before 40 running)).xpe.staging.plan.map (·.cursor) = (staged (before 40 running)).seq.cursor) ∧
    (withTransfer (.shifted 101) (staged (before 40 running))).hcc.transfer = .shifted 101 ∧
    (staged (before 40 running)).hcc.transfer ≠ .shifted 101 ∧ ready.seq.state ≠ .running ∧
    (before 360 running).stepsOnto .opening ∧ (withTransfer (.taking 101) running).takes ∧
    running.pendingPlan = some plan ∧ (staged running).pendingPlan = none ∧
    (before 540 running).stepsOnto .prep ∧ running.xpe = ⟨none, .empty⟩ ∧
    (running.wft.choose (running.cardOf cur).weft).feeder ≠ none ∧ (staged running).stagedBelongs = true ∧
    (before 620 running).stepsOnto .xfer ∧ running.hcc.census ≠ 0 ∧ running.hcc.transfer = .idle :=
  ⟨by unfold State.stepsOnto; decide +kernel, by decide +kernel, by decide, by decide, by decide,
    by unfold State.stepsOnto; decide +kernel, ⟨101, rfl⟩, by decide +kernel, by decide +kernel,
    by unfold State.stepsOnto; decide +kernel, by decide, by decide +kernel, by decide +kernel,
    by unfold State.stepsOnto; decide +kernel, by decide, by decide⟩

theorem witness_EdgesAndTimersAct :
    (({ running.wft with window := some 100 } : Wft).window = some 100 ∧ running.wft.capture = none) ∧
    ((window running).wft.window = some 100 ∧ (window running).wft.capture = some 455) ∧ running.wft.window = none ∧
    (after .motionForward ready).ang.stallTimer ≠ none ∧ ready.ang.stallTimer = none ∧ true ≠ ready.grd.rawWarp ∧
    ({ ready.grd with filterTimer := none } : Grd).filterTimer = none ∧ State.reset.grd.filterTimer ≠ none ∧
    State.reset.grd.warp = State.reset.grd.rawWarp ∧
    (({ ready.grd with rawWarp := true } : Grd).rawWarp = true ∧ ready.grd.warp = false) ∧
    (({ ready.grd with warp := true } : Grd).warp = true ∧ ready.grd.rawWarp = false) ∧
    ((inState .guard .none .atRest ready).seq.state = .guard ∧ (inState .guard .none .atRest ready).ang.rest = .atRest ∧
      (inState .guard .none .atRest ready).seq.coasting = false ∧
      (inState .guard .none .atRest ready).grd.levelCause = false) := by decide +kernel

theorem witness_SettleExpiryDeclaresRest : ready.ang.settleTimer = none ∧ running.ang.settleTimer ≠ none ∧
    (running.seq.state = .unloaded ∨ running.seq.state = .presenting ∨ running.seq.state = .ready ∨
      running.seq.state = .running) ∧
    (inState .halted .none .moving ready).seq.state = .halted ∧
    ((inState .guard .none .moving ready).seq.state = .guard ∧ ((true && !false) = true) ∧
      ((true && !true) = false) ∧ ready.grd.levelCause = false) ∧
    ((inState .finding .none .moving ready).seq.grant = .none ∧ ready.seq.present = none ∧ ready.seq.findWaiting = 0) ∧
    ¬((inState .finding .find .moving ready).seq.grant = .none) ∧
    ((inState .stopping .none .moving ready).seq.state = .stopping ∧
      (inState .stopping .none .moving ready).ang.settleTimer ≠ none) := by
  decide +kernel

theorem witness_ChangeUnitRequests : ready.plk.isOpen = true ∧ 8 ≤ 8 ∧ (∃ m, Condition.atMark 4 = .atMark m ∧ 3 < m) ∧
    (∃ n, Condition.atCount 0 = .atCount n ∧ (n = 0 ∨ 65535 < n)) ∧
    (∀ m, Condition.atMark 3 = .atMark m → m ≤ 3) ∧ (∀ n, Condition.atCount 65535 = .atCount n → 1 ≤ n ∧ n ≤ 65535) ∧
    unloaded.seq.state = .unloaded ∧ (ready.seq.state ≠ .unloaded ∧ ready.seq.state ≠ .halted) ∧
    (ready.slot 0).state ≠ .valid ∧ ((ready.slot 2).state = .valid ∧ ready.design 2 = some sixCards) ∧
    (sixCards.height ≤ 6 ∧ 5 < sixCards.height) ∧
    (4 ≤ [change 1, change 2, change 3, change 4].length ∧ [change 1, change 2, change 3].length < 4) ∧
    ¬running.openToSettings ∧ ready.openToSettings ∧ (CompMode.any ≠ .off ∧ (0 : BitVec 8) = 0) ∧ (1 : BitVec 8) ≠ 0 :=
  ⟨by decide, by decide, ⟨4, rfl, by decide⟩, ⟨0, rfl, by decide⟩, by intro m h; cases h; decide,
    by intro n h; cases h; decide, by decide, by decide, by decide, by decide +kernel, by decide, by decide, by decide,
    by decide, by decide, by decide⟩

theorem witness_TriggersTakenByState : unloaded.seq.state = .unloaded ∧ ready.seq.state ≠ .unloaded ∧
    ({ ready.grd with enabled := fewest.enabled } : Grd).isEnabled .weftMissing = false ∧
    ((inState .guard .none .moving ready).seq.state = .guard ∧ ready.grd.isEnabled .weftMissing = true) ∧
    (inState .halted .none .moving ready).seq.state = .halted ∧
    ((inState .finding .find .moving ready).seq.state.guarded ∧ ready.grd.isEnabled .historyEnd = true) := by decide +kernel

theorem witness_SetGuardReplacesSettings : ready.plk.isOpen = true ∧ ¬(16 ≤ 15) ∧
    (fewest.limit ≤ 15 ∧ 1 ≤ fewest.filterTime ∧ fewest.filterTime ≤ 255) ∧
    (∀ x : Trigger, x.mayDisable = false → fewest.enabled.get x.idx = true) ∧ most.limit ≤ 15 ∧
    (∀ x : Trigger, x.mayDisable = false → most.enabled.get x.idx = true) ∧
    (ready.grd.warp = false ∧ ready.grd.moduleLevel = false ∧ ready.seq.state ≠ .guard) ∧
    (({ ready.grd with enabled := fewest.enabled, warp := true } : Grd).isEnabled .warpStop = false ∧
      most.enabled.get Trigger.warpStop.idx = true ∧ ready.seq.state.guarded) ∧
    (ready.grd.isEnabled .warpStop = true ∧ fewest.enabled.get Trigger.warpStop.idx = false ∧
      (inState .guard .none .atRest ready).seq.coasting = false) :=
  ⟨by decide, by decide, by decide, by intro x; cases x <;> decide, by decide, by intro x; cases x <;> decide, by decide,
    by decide, by decide⟩

theorem witness_ClearHaltLeavesHalted : ready.plk.isOpen = true ∧
    ¬(ready.seq.state = .halted ∧ ready.ang.rest = .atRest ∧ ready.seq.coasting = false ∧ ready.grd.levelCause = false) ∧
    ((inState .halted .none .atRest ready).seq.state = .halted ∧ (inState .halted .none .atRest ready).ang.rest = .atRest ∧
      (inState .halted .none .atRest ready).seq.coasting = false ∧
      (inState .halted .none .atRest ready).grd.levelCause = false) := by decide

/-- For `State.guardLeft`, in GUARD at rest: an exit to READY with a presentation owed and without; to PRESENTING with the
hooks CLOSED; and one that waits for a TAKE with a DROP-ALL held. -/
theorem witness_guardLeft :
    ((owing .guard).exitsToReady ∧ (owing .guard).seq.representOwed ≠ .no ∧ (owing .guard).seq.cursor = some cur ∧
      (owing .guard).stagedBelongs = false ∧ ¬(owing .guard).takes) ∧
    ((inState .guard .none .atRest ready).exitsToReady ∧ ready.seq.representOwed = .no) ∧
    ¬({ owing .guard with hcc := { ready.hcc with latched := .closed } } : State).exitsToReady ∧
    (¬({ owing .guard with hcc := { ready.hcc with transfer := .taking 100, dropHeld := true } } : State).exitsToReady ∧
      ({ owing .guard with hcc := { ready.hcc with transfer := .taking 100, dropHeld := true } } : State).takes) := by
  refine ⟨⟨by decide +kernel, by decide, by decide, by decide +kernel, fun ⟨_, h⟩ => nomatch h⟩, by decide +kernel,
    by decide +kernel, by decide +kernel, ⟨100, rfl⟩⟩

theorem witness_ClearGuardCountZeroesCount : ready.plk.isOpen = true ∧ ready.seq.state.guarded ∧
    ready.grd.isEnabled .weftMissing = true ∧ ready.grd.counts.get Trigger.weftMissing.idx = true ∧
    (0 < ({ ready.grd with count := 4 } : Grd).limit ∧ ready.grd.limit ≤ ({ ready.grd with count := 4 } : Grd).count) ∧
    ready.grd.count < ready.grd.limit := by decide

/-- A busy link; a wrong check; an unknown code; each outcome of the encoding check. -/
theorem witness_ReceiverChecksFrames : (([] : List Byte).length ≤ 4096 ∧ (List.replicate 4096 (0 : Byte)).length ≤ 4096) ∧
    (ready.link .p).rx = .hunting ∧ ((busyLink .atOwner ready).link .p).outstanding ≠ none ∧ (ready.link .p).isOpen = true ∧
    frameCheck 0x11 [] + 1 ≠ frameCheck 0x11 [] ∧ (∀ r : Request, ¬(r.code = 0x00 ∧ r.onLink .p = true)) ∧
    (Request.readSchedule.code = 0x11 ∧ Request.readSchedule.onLink .p = true) ∧
    decodeRequest .p .readSchedule [0] = .frameError ∧ decodeRequest .p .readHistory [0, 0] = .badArgument ∧
    decodeRequest .p .readSchedule [] = .request .readSchedule ∧
    (([⟨0x11, true⟩, ⟨0, false⟩, ⟨0, false⟩, ⟨0, false⟩, ⟨0, false⟩] : List LineChar).map (·.byte) =
      ((frameChars 0x11 [] 0).drop 1).map (·.byte) ∧ (LineChar.mk 0x11 true).err = true) ∧
    (4096 < 4097 ∧ 4097 < 65536 ∧ 4096 < 65535 ∧ 65535 < 65536) :=
  ⟨by decide +kernel, by decide, by decide, by decide, by decide +kernel, by intro r; cases r <;> decide, by decide,
    by decide, by decide, by decide, by decide, by decide⟩

theorem witness_BreakAndResponseEnd : (ready.link .p).outstanding = none ∧
    ((busyLink .atOwner ready).link .p).outstanding = some ⟨0x25, .atOwner⟩ ∧
    ((busyLink .sending ready).link .p).outstanding = some ⟨0x25, .sending⟩ := by decide

end Sys2Proof.Tests
end

section
/-! PROOFS. The step on the queue (log 1), and SET-SCHEDULE (R7, R14). -/

namespace Sys2Proof.Machine

/-! ### The step -/

theorem step_idle {s : State} (h : s.pending = []) : step s = .next s := by simp only [step, h]

theorem step_front (c : Instr) (rest : List Instr) (s : State) :
    step { s with pending := c :: rest } = exec c { s with pending := rest } := rfl

/-- Settles O1, by the two forms of the queue. -/
theorem stepRunsFrontCommand : Obligations.StepRunsFrontCommand :=
  ⟨step_front, fun _ h => step_idle h⟩

/-! ### When a setting may be written, and the armed set -/

theorem writable_iff {s : State} :
    s.writable = true ↔ s.seq.state = .unloaded ∨ s.seq.state = .ready ∧ s.seq.grant = .none := by
  simp [State.writable]

/-- Taking a request leaves the sequencer, so the owner may look at the state before it. -/
@[simp] theorem writable_awaited (s : State) (l : LinkId) (r : Request) : (s.awaited l r).writable = s.writable := by
  simp [State.writable]

theorem mem_schedAngle_all (a : SchedAngle) : a ∈ SchedAngle.all := by cases a <;> decide

/-- UNINDEXED, every angle is armed; INDEXED, those the count has not reached. -/
theorem mem_rederived (x : Ang) (c : Schedule) (a : SchedAngle) :
    a ∈ x.rederived c ↔ x.index = .unindexed ∨ x.count < (c.angle a : Int) := by
  cases h : x.index with
  | unindexed => simp [Ang.rederived, h, mem_schedAngle_all]
  | indexed => simp [Ang.rederived, h, mem_schedAngle_all]

/-! ### SET-SCHEDULE at ANG -/

/-- What an accepted SET-SCHEDULE leaves. -/
def State.scheduled (s : State) (c : Schedule) : State :=
  { s with ang := { s.ang with sched := c, armed := s.ang.rederived c } }

/-- The tracker and the P-link are apart: the schedule may be set before the frame is taken or after. -/
theorem scheduled_awaited (s : State) (c : Schedule) (r : Request) :
    (s.awaited .p r).scheduled c = (s.scheduled c).awaited .p r := rfl

theorem setSchedule_wrongState {s : State} (c : Schedule) (h : ¬s.writable = true) :
    setSchedule c s = refuse s .wrongState := by
  rw [setSchedule, if_neg h]

theorem setSchedule_badArgument {s : State} {c : Schedule} (h : s.writable = true) (hc : ¬c.legal) :
    setSchedule c s = refuse s .badArgument := by
  rw [setSchedule, if_pos h, if_neg hc]

theorem setSchedule_accepts {s : State} {c : Schedule} (h : s.writable = true) (hc : c.legal) :
    setSchedule c s = accept (s.scheduled c) [] := by
  rw [setSchedule, if_pos h, if_pos hc, State.scheduled]

/-! ### SET_SCHEDULE on the P-link -/

section
variable {s : State} {c : Schedule} (ho : s.plk.isOpen = true)
include ho

theorem exec_setSchedule_wrongState (h : ¬s.writable = true) :
    exec (.setSchedule c) s = .next (s.responded .p .setSchedule .wrongState []) :=
  congrArg Host.Outcome.next
    (request_refuses ho rfl (setSchedule_wrongState c (by rwa [writable_awaited])))

theorem exec_setSchedule_badArgument (h : s.writable = true) (hc : ¬c.legal) :
    exec (.setSchedule c) s = .next (s.responded .p .setSchedule .badArgument []) :=
  congrArg Host.Outcome.next
    (request_refuses ho rfl (setSchedule_badArgument (by rwa [writable_awaited]) hc))

theorem exec_setSchedule_accepts (h : s.writable = true) (hc : c.legal) :
    exec (.setSchedule c) s = .next ((s.scheduled c).responded .p .setSchedule .ok []) := by
  have howner : setSchedule c (s.awaited .p .setSchedule) = accept ((s.scheduled c).awaited .p .setSchedule) [] := by
    rw [setSchedule_accepts (by rwa [writable_awaited]) hc, scheduled_awaited]
  have hsupp : (s.scheduled c).plk.suppressed = false := ((isOpen_iff s.plk).1 ho).2.2
  exact congrArg Host.Outcome.next (request_answers ho rfl howner hsupp)

end

/-- Settles O25, by the two checks of R14 in their order: the state of SEQ, then the legality of R7. -/
theorem setScheduleRederivesArmedSet : Obligations.SetScheduleRederivesArmedSet := by
  intro c s ho
  simp only [← writable_iff]
  refine ⟨fun h => ?_, fun h hc => ?_, fun h hc => ?_⟩
  · exact exec_setSchedule_wrongState ho h
  · exact exec_setSchedule_badArgument ho h hc
  · exact ⟨s.ang.rederived c, exec_setSchedule_accepts ho h hc, mem_rederived s.ang c⟩

end Sys2Proof.Machine
end

section
/-! PROOFS. The design store (chapter 2): DEFINE-DESIGN (R22), WRITE-FIGURE and WRITE-CARDS (R23, R24), REOPEN-DESIGN and
ERASE-DESIGN (R28, R29). -/

namespace Sys2Proof.Machine

/-! ### Requests to FST -/

@[simp] theorem withSlot_outside {k : Nat} (h : 8 ≤ k) (s : State) (f : Fin 8 → Slot → State × Reply) :
    withSlot k s f = refuse s .badArgument := by
  simp [withSlot, member, Nat.not_lt.2 h]

@[simp] theorem withSlot_fin (i : Fin 8) (s : State) (f : Fin 8 → Slot → State × Reply) :
    withSlot i.1 s f = f i (s.slot i) := by
  simp [withSlot, member]

/-- The store and the P-link are apart: an owner that changes the store alone answers over the state before the frame. -/
theorem request_stores {s : State} {r : Request} {owner : State → State × Reply} {g : Fst} {p : List Byte}
    (ho : s.plk.isOpen = true) (hl : r.onLink .p = true)
    (h : owner (s.awaited .p r) = accept { s.awaited .p r with fst := g } p) :
    request .p r .good owner s = ({ s with fst := g }).responded .p r .ok p :=
  request_answers ho hl h ((isOpen_iff s.plk).1 ho).2.2

/-- Where the owner refuses BAD-ARGUMENT, an encoding fault of the link makes no difference (R191). -/
theorem request_badArgument_anyCheck {l : LinkId} {s : State} {r : Request} {check : EncodingCheck}
    {owner : State → State × Reply} (ho : (s.link l).isOpen = true) (hl : r.onLink l = true)
    (hc : check ≠ .frameError) (h : owner (s.awaited l r) = refuse (s.awaited l r) .badArgument) :
    request l r check owner s = s.responded l r .badArgument [] := by
  cases check with
  | good => exact request_refuses ho hl h
  | badArgument => exact request_badArgument owner ho hl
  | frameError => exact absurd rfl hc

/-! ### The owner map -/

@[simp] theorem get_setOwner (f : Fst) (blocks : List Nat) (o : Option (Fin 8)) (b : Fin 256) :
    (f.setOwner blocks o).get b = if b.1 ∈ blocks then o else f.owner.get b := by
  simp [Fst.setOwner]

/-! ### DEFINE-DESIGN at FST (R22) -/

theorem headerOk_iff (w h : Nat) (map : Vector Nat 16) :
    headerOk w h map = true ↔ 8 ≤ w ∧ w ≤ 6144 ∧ 1 ≤ h ∧ h ≤ 16384 ∧ ∀ v ∈ map.toList, v ≤ 31 := by
  simp only [headerOk, Bool.and_eq_true, decide_eq_true_eq, List.all_eq_true, and_assoc]

/-- R20 in numbers: the quotient by the cells of a block, rounded up. -/
theorem blocksNeeded_eq (w h : Nat) : blocksNeeded w h = (h * (w + 8) + 65535) / 65536 := by
  simp only [blocksNeeded, ceilDiv, Config.blockCells]
  omega

section
variable {w h : Nat} {map : Vector Nat 16} {s : State} {i : Fin 8}

theorem defineDesign_wrongState (hx : (s.slot i).state ≠ .empty) :
    defineDesign i.1 w h map s = refuse s .wrongState := by
  rw [defineDesign, withSlot_fin, if_pos hx]

theorem defineDesign_badArgument (hx : (s.slot i).state = .empty) (hh : ¬headerOk w h map = true) :
    defineDesign i.1 w h map s = refuse s .badArgument := by
  rw [defineDesign, withSlot_fin, if_neg (fun hne => hne hx), if_pos (Bool.eq_false_iff.2 hh)]

theorem defineDesign_noSpace (hx : (s.slot i).state = .empty) (hh : headerOk w h map = true)
    (hn : s.fst.free < blocksNeeded w h) : defineDesign i.1 w h map s = refuse s .noSpace := by
  rw [defineDesign, withSlot_fin, if_neg (fun hne => hne hx), if_neg (by simp [hh]), if_pos hn]

theorem defineDesign_accepts (hx : (s.slot i).state = .empty) (hh : headerOk w h map = true)
    (hn : blocksNeeded w h ≤ s.fst.free) :
    defineDesign i.1 w h map s = accept { s with fst := s.fst.define i w h map }
      (b16 (blocksNeeded w h) ++ b16 (s.fst.free - blocksNeeded w h)) := by
  rw [defineDesign, withSlot_fin, if_neg (fun hne => hne hx), if_neg (by simp [hh]), if_neg (Nat.not_lt.2 hn)]

end

section
variable (f : Fst) (i : Fin 8) (w h : Nat) (map : Vector Nat 16)

theorem slots_define_ne {j : Fin 8} (hj : j ≠ i) : (f.define i w h map).slots.get j = f.slots.get j :=
  get_upd_ne _ _ hj

theorem slots_define_same :
    (f.define i w h map).slots.get i = { f.slots.get i with
      state := .loading, design := some ⟨w, h, map, [], []⟩, blocks := f.lowestFree (blocksNeeded w h),
      nonVoid := none } :=
  get_upd _ _ _

theorem owner_define (b : Fin 256) :
    (f.define i w h map).owner.get b = if b.1 ∈ f.lowestFree (blocksNeeded w h) then some i else f.owner.get b :=
  get_setOwner _ _ _ _

end

/-- Settles O27, by the checks of R22 in their order: the slot number, its state, the header, the free blocks. -/
theorem defineDesignTakesLowestFreeBlocks : Obligations.DefineDesignTakesLowestFreeBlocks := by
  intro w h map s ho
  simp only [← headerOk_iff, ← blocksNeeded_eq]
  refine ⟨fun k hk => ?_, fun i => ⟨fun hx => ?_, fun hx hh => ?_, fun hx hh hn => ?_, fun hx hh hn => ?_⟩⟩
  · exact congrArg Host.Outcome.next (request_refuses ho rfl (withSlot_outside hk _ _))
  · exact congrArg Host.Outcome.next (request_refuses ho rfl (defineDesign_wrongState hx))
  · exact congrArg Host.Outcome.next (request_refuses ho rfl (defineDesign_badArgument hx hh))
  · exact congrArg Host.Outcome.next (request_refuses ho rfl (defineDesign_noSpace hx hh hn))
  · have hexec := request_stores (r := .defineDesign) ho rfl (defineDesign_accepts hx hh hn)
    exact ⟨s.fst.define i w h map, blocksNeeded w h, ⟨w, h, map, [], []⟩, s.fst.lowestFree (blocksNeeded w h),
      congrArg Host.Outcome.next hexec, rfl, rfl, rfl, fun _ hj => slots_define_ne _ _ _ _ _ hj,
      slots_define_same _ _ _ _ _, rfl, rfl, rfl, fun _ _ => rfl, fun _ => rfl, owner_define _ _ _ _ _⟩

/-! ### The checks of the two writes (R191) -/

theorem countCheck_good {least most n : Nat} (h : least ≤ n) (h' : n ≤ most) : countCheck least most n = .good :=
  if_pos ⟨h, h'⟩

theorem countCheck_badArgument {least most n : Nat} (h : ¬(least ≤ n ∧ n ≤ most)) :
    countCheck least most n = .badArgument := if_neg h

theorem countCheck_ne_frameError (least most n : Nat) : countCheck least most n ≠ .frameError := by
  unfold countCheck; split <;> nofun

/-- R24, R191: each pick repeat from 1 to 4. -/
theorem all_recordOk_iff (records : List CardRecord) :
    records.all recordOk = true ↔ ∀ r ∈ records, 1 ≤ r.pickRepeat ∧ r.pickRepeat ≤ 4 := by
  simp [recordOk]

/-- The link's check of the records is the owner's, before the count's. -/
theorem cardsCheck_eq (records : List CardRecord) :
    cardsCheck records = if records.all recordOk = true then countCheck 1 512 records.length else .badArgument := rfl

theorem cardsCheck_good {records : List CardRecord} (hr : records.all recordOk = true) (h : 1 ≤ records.length)
    (h' : records.length ≤ 512) : cardsCheck records = .good := by
  rw [cardsCheck_eq, if_pos hr, countCheck_good h h']

theorem cardsCheck_badArgument {records : List CardRecord} (h : ¬(1 ≤ records.length ∧ records.length ≤ 512)) :
    cardsCheck records = .badArgument := by
  rw [cardsCheck_eq, countCheck_badArgument h, ite_self]

theorem cardsCheck_ne_frameError (records : List CardRecord) : cardsCheck records ≠ .frameError := by
  rw [cardsCheck_eq]; split
  · exact countCheck_ne_frameError _ _ _
  · nofun

/-! ### WRITE-FIGURE and WRITE-CARDS at FST (R23, R24) -/

theorem canonical_design {s : State} (hs : s.contentsCanonical) {i : Fin 8} {d : Design} (hd : s.design i = some d) :
    d.canonical := by
  have hi := hs i
  rw [hd] at hi
  exact hi

/-- A change of a design that a slot has, as an update of the slot. -/
theorem modSlot_modDesign {s : State} {i : Fin 8} {d : Design} (hd : s.design i = some d) (f : Design → Design) :
    s.fst.modSlot i (·.modDesign f) = s.fst.modSlot i fun x => { x with design := some (f d) } := by
  have hx : (s.fst.slots.get i).design = some d := hd
  simp only [Fst.modSlot, Slot.modDesign, hx, Option.map_some]

theorem runFits_iff (d : Design) (c j n : Nat) :
    d.runFits c j n = true ↔ c < d.height ∧ j < d.width ∧ c * d.width + j + n ≤ d.height * d.width := by
  simp [Design.runFits, and_assoc]

section
variable {s : State} {i : Fin 8} {d : Design} {c j : Nat} {cells : List (BitVec 4)} {records : List CardRecord}

theorem writeFigure_wrongState (hx : (s.slot i).state ≠ .loading) :
    writeFigure i.1 c j cells s = refuse s .wrongState := by
  rw [writeFigure, withSlot_fin]
  cases hs : (s.slot i).state with
  | loading => exact absurd hs hx
  | empty | valid => rfl

theorem writeFigure_loading (hx : (s.slot i).state = .loading) (hd : s.design i = some d) :
    writeFigure i.1 c j cells s =
      if d.runFits c j cells.length then
        accept { s with fst := s.fst.modSlot i (·.modDesign fun d => d.writeRun (c * d.width + j) cells) } []
      else refuse s .badArgument := by
  have hd' : (s.slot i).design = some d := hd
  simp only [writeFigure, withSlot_fin, hx, hd']

theorem writeFigure_accepts (hx : (s.slot i).state = .loading) (hd : s.design i = some d)
    (hf : d.runFits c j cells.length = true) :
    writeFigure i.1 c j cells s = accept { s with fst := s.fst.modSlot i fun x =>
      { x with design := some (d.writeRun (c * d.width + j) cells) } } [] := by
  rw [writeFigure_loading hx hd, if_pos hf, modSlot_modDesign hd]

theorem writeFigure_badArgument (hx : (s.slot i).state = .loading) (hd : s.design i = some d)
    (hf : ¬d.runFits c j cells.length = true) : writeFigure i.1 c j cells s = refuse s .badArgument := by
  rw [writeFigure_loading hx hd, if_neg hf]

theorem writeCards_wrongState (hx : (s.slot i).state ≠ .loading) :
    writeCards i.1 c records s = refuse s .wrongState := by
  rw [writeCards, withSlot_fin]
  cases hs : (s.slot i).state with
  | loading => exact absurd hs hx
  | empty | valid => rfl

theorem writeCards_loading (hx : (s.slot i).state = .loading) (hd : s.design i = some d) :
    writeCards i.1 c records s =
      if c + records.length ≤ d.height ∧ records.all recordOk = true then
        accept { s with fst := s.fst.modSlot i (·.modDesign fun d => d.writeCards c records) } []
      else refuse s .badArgument := by
  have hd' : (s.slot i).design = some d := hd
  simp only [writeCards, withSlot_fin, hx, hd']

theorem writeCards_accepts (hx : (s.slot i).state = .loading) (hd : s.design i = some d)
    (hf : c + records.length ≤ d.height) (hr : records.all recordOk = true) :
    writeCards i.1 c records s = accept { s with fst := s.fst.modSlot i fun x =>
      { x with design := some (d.writeCards c records) } } [] := by
  rw [writeCards_loading hx hd, if_pos ⟨hf, hr⟩, modSlot_modDesign hd]

theorem writeCards_badArgument (hx : (s.slot i).state = .loading) (hd : s.design i = some d)
    (hf : ¬(c + records.length ≤ d.height ∧ records.all recordOk = true)) :
    writeCards i.1 c records s = refuse s .badArgument := by
  rw [writeCards_loading hx hd, if_neg hf]

end

/-! ### WRITE_FIGURE and WRITE_CARDS on the P-link -/

theorem exec_writeFigure (k c j : Nat) (cells : List (BitVec 4)) (s : State) :
    exec (.writeFigure k c j cells) s =
      .next (request .p .writeFigure (countCheck 1 8000 cells.length) (writeFigure k c j cells) s) := rfl

theorem exec_writeCards (k c : Nat) (records : List CardRecord) (s : State) :
    exec (.writeCards k c records) s =
      .next (request .p .writeCards (cardsCheck records) (writeCards k c records) s) := rfl

section
variable {s : State} {i : Fin 8} {d : Design} {c j : Nat} {cells : List (BitVec 4)} {records : List CardRecord}
  (ho : s.plk.isOpen = true)
include ho

theorem exec_writeFigure_accepts (hx : (s.slot i).state = .loading) (hd : s.design i = some d)
    (h1 : 1 ≤ cells.length) (h2 : cells.length ≤ 8000) (hf : d.runFits c j cells.length = true) :
    exec (.writeFigure i.1 c j cells) s = .next (({ s with fst := s.fst.modSlot i fun x =>
      { x with design := some (d.writeRun (c * d.width + j) cells) } }).responded .p .writeFigure .ok []) := by
  rw [exec_writeFigure, countCheck_good h1 h2]
  exact congrArg Host.Outcome.next (request_stores ho rfl (writeFigure_accepts hx hd hf))

theorem exec_writeFigure_outside (hx : (s.slot i).state = .loading) (hd : s.design i = some d)
    (hf : ¬d.runFits c j cells.length = true) :
    exec (.writeFigure i.1 c j cells) s = .next (s.responded .p .writeFigure .badArgument []) :=
  congrArg Host.Outcome.next
    (request_badArgument_anyCheck ho rfl (countCheck_ne_frameError _ _ _) (writeFigure_badArgument hx hd hf))

theorem exec_writeFigure_wrongState (hx : (s.slot i).state ≠ .loading) (h1 : 1 ≤ cells.length)
    (h2 : cells.length ≤ 8000) :
    exec (.writeFigure i.1 c j cells) s = .next (s.responded .p .writeFigure .wrongState []) := by
  rw [exec_writeFigure, countCheck_good h1 h2]
  exact congrArg Host.Outcome.next (request_refuses ho rfl (writeFigure_wrongState hx))

theorem exec_writeFigure_noSlot {k : Nat} (hk : 8 ≤ k) :
    exec (.writeFigure k c j cells) s = .next (s.responded .p .writeFigure .badArgument []) :=
  congrArg Host.Outcome.next
    (request_badArgument_anyCheck ho rfl (countCheck_ne_frameError _ _ _) (withSlot_outside hk _ _))

theorem exec_writeFigure_badCount (k : Nat) (hn : ¬(1 ≤ cells.length ∧ cells.length ≤ 8000)) :
    exec (.writeFigure k c j cells) s = .next (s.responded .p .writeFigure .badArgument []) := by
  rw [exec_writeFigure, countCheck_badArgument hn]
  exact congrArg Host.Outcome.next (request_badArgument _ ho rfl)

theorem exec_writeCards_accepts (hx : (s.slot i).state = .loading) (hd : s.design i = some d)
    (h1 : 1 ≤ records.length) (h2 : records.length ≤ 512) (hf : c + records.length ≤ d.height)
    (hr : records.all recordOk = true) :
    exec (.writeCards i.1 c records) s = .next (({ s with fst := s.fst.modSlot i fun x =>
      { x with design := some (d.writeCards c records) } }).responded .p .writeCards .ok []) := by
  rw [exec_writeCards, cardsCheck_good hr h1 h2]
  exact congrArg Host.Outcome.next (request_stores ho rfl (writeCards_accepts hx hd hf hr))

theorem exec_writeCards_outside (hx : (s.slot i).state = .loading) (hd : s.design i = some d)
    (hf : ¬(c + records.length ≤ d.height ∧ records.all recordOk = true)) :
    exec (.writeCards i.1 c records) s = .next (s.responded .p .writeCards .badArgument []) :=
  congrArg Host.Outcome.next
    (request_badArgument_anyCheck ho rfl (cardsCheck_ne_frameError _) (writeCards_badArgument hx hd hf))

theorem exec_writeCards_wrongState (hx : (s.slot i).state ≠ .loading) (h1 : 1 ≤ records.length)
    (h2 : records.length ≤ 512) (hr : records.all recordOk = true) :
    exec (.writeCards i.1 c records) s = .next (s.responded .p .writeCards .wrongState []) := by
  rw [exec_writeCards, cardsCheck_good hr h1 h2]
  exact congrArg Host.Outcome.next (request_refuses ho rfl (writeCards_wrongState hx))

theorem exec_writeCards_noSlot {k : Nat} (hk : 8 ≤ k) :
    exec (.writeCards k c records) s = .next (s.responded .p .writeCards .badArgument []) :=
  congrArg Host.Outcome.next
    (request_badArgument_anyCheck ho rfl (cardsCheck_ne_frameError _) (withSlot_outside hk _ _))

theorem exec_writeCards_badCount (k : Nat) (hn : ¬(1 ≤ records.length ∧ records.length ≤ 512)) :
    exec (.writeCards k c records) s = .next (s.responded .p .writeCards .badArgument []) := by
  rw [exec_writeCards, cardsCheck_badArgument hn]
  exact congrArg Host.Outcome.next (request_badArgument _ ho rfl)

end

/-- Settles O28: the run's place and the records decide in LOADING, the state outside it; what the run replaces is
`cell_writeRun` and `card_writeCards`. -/
theorem storeWritesReplaceRun : Obligations.StoreWritesReplaceRun := by
  intro s ho hs
  simp only [← all_recordOk_iff, ← runFits_iff]
  refine ⟨fun i d c j cells hx hd h1 h2 hc hj hf => ?_, fun i d c records hx hd h1 h2 hf hr => ?_,
    fun i d c j cells hx hd hf => ?_, fun i d c records hx hd hf => ?_, fun i c j cells hx h1 h2 => ?_,
    fun i c records hx h1 h2 hr => ?_, fun k c j cells h => ?_, fun k c records h => ?_⟩
  · exact ⟨d.writeRun (c * d.width + j) cells,
      exec_writeFigure_accepts ho hx hd h1 h2 ((runFits_iff ..).2 ⟨hc, hj, hf⟩), width_writeRun .., height_writeRun ..,
      map_writeRun .., card_writeRun _ _ _, fun x y _ hy => cell_writeRun _ _ _ x y (canonical_design hs hd) hy⟩
  · exact ⟨d.writeCards c records, exec_writeCards_accepts ho hx hd h1 h2 hf hr, width_writeCards ..,
      height_writeCards .., map_writeCards .., cell_writeCards _ _ _,
      fun k => card_writeCards _ _ _ k (canonical_design hs hd)⟩
  · exact exec_writeFigure_outside ho hx hd hf
  · refine exec_writeCards_outside ho hx hd fun ⟨hin, hr⟩ => ?_
    rcases hf with hlong | ⟨r, hmem, hbad⟩
    · exact absurd hin (Nat.not_le.2 hlong)
    · have := (all_recordOk_iff records).1 hr r hmem
      omega
  · exact exec_writeFigure_wrongState ho hx h1 h2
  · exact exec_writeCards_wrongState ho hx h1 h2 hr
  · rcases h with hk | hn
    · exact exec_writeFigure_noSlot ho hk
    · exact exec_writeFigure_badCount ho k (by omega)
  · rcases h with hk | hn
    · exact exec_writeCards_noSlot ho hk
    · exact exec_writeCards_badCount ho k (by omega)

/-! ### REOPEN-DESIGN and ERASE-DESIGN at FST (R28, R29) -/

section
variable {s : State} {i : Fin 8}

theorem reopenDesign_wrongState (hx : (s.slot i).state ≠ .valid) : reopenDesign i.1 s = refuse s .wrongState := by
  rw [reopenDesign, withSlot_fin, if_pos hx]

theorem reopenDesign_held (hx : (s.slot i).state = .valid) (hh : (s.slot i).held = true) :
    reopenDesign i.1 s = refuse s .held := by
  rw [reopenDesign, withSlot_fin, if_neg (fun hne => hne hx), if_pos hh]

theorem reopenDesign_accepts (hx : (s.slot i).state = .valid) (hh : (s.slot i).held = false) :
    reopenDesign i.1 s =
      accept { s with fst := s.fst.modSlot i fun x => { x with state := .loading, nonVoid := none } } [] := by
  rw [reopenDesign, withSlot_fin, if_neg (fun hne => hne hx), if_neg (by simp [hh])]

theorem eraseDesign_empty (hx : (s.slot i).state = .empty) : eraseDesign i.1 s = accept s (b16 s.fst.free) := by
  rw [eraseDesign, withSlot_fin, hx]

theorem eraseDesign_held (hx : (s.slot i).state = .valid) (hh : (s.slot i).held = true) :
    eraseDesign i.1 s = refuse s .held := by
  simp only [eraseDesign, withSlot_fin, hx, if_pos hh]

theorem eraseDesign_erases
    (hx : (s.slot i).state = .loading ∨ (s.slot i).state = .valid ∧ (s.slot i).held = false) :
    eraseDesign i.1 s = accept { s with fst := s.fst.erase i } (b16 (s.fst.erase i).free) := by
  rcases hx with hl | ⟨hv, hh⟩
  · rw [eraseDesign, withSlot_fin, hl]
  · simp only [eraseDesign, withSlot_fin, hv, hh, Bool.false_eq_true, if_false]

end

section
variable (f : Fst) (i : Fin 8)

theorem slots_erase_ne {j : Fin 8} (hj : j ≠ i) : (f.erase i).slots.get j = f.slots.get j := get_upd_ne _ _ hj

theorem slots_erase_same :
    (f.erase i).slots.get i = { f.slots.get i with state := .empty, design := none, blocks := [], nonVoid := none } :=
  get_upd _ _ _

theorem owner_erase (b : Fin 256) :
    (f.erase i).owner.get b = if b.1 ∈ (f.slots.get i).blocks then none else f.owner.get b :=
  get_setOwner _ _ _ _

end

/-- Settles O30, by the state of the slot and, in VALID, whether it is held. -/
theorem reopenAndEraseRespectHolds : Obligations.ReopenAndEraseRespectHolds := by
  intro s ho
  refine ⟨fun k hk => ⟨?_, ?_⟩,
    fun i => ⟨fun hx => ?_, fun hx hh => ⟨?_, ?_⟩, fun hx hh => ?_, fun hx => ?_, fun hx => ?_⟩⟩
  · exact congrArg Host.Outcome.next (request_refuses ho rfl (withSlot_outside hk _ _))
  · exact congrArg Host.Outcome.next (request_refuses ho rfl (withSlot_outside hk _ _))
  · exact congrArg Host.Outcome.next (request_refuses ho rfl (reopenDesign_wrongState hx))
  · exact congrArg Host.Outcome.next (request_refuses ho rfl (reopenDesign_held hx hh))
  · exact congrArg Host.Outcome.next (request_refuses ho rfl (eraseDesign_held hx hh))
  · exact congrArg Host.Outcome.next (request_stores ho rfl (reopenDesign_accepts hx hh))
  · exact congrArg Host.Outcome.next (request_stores ho rfl (eraseDesign_empty hx))
  · have hexec := request_stores (r := .eraseDesign) ho rfl (eraseDesign_erases hx)
    exact ⟨s.fst.erase i, congrArg Host.Outcome.next hexec, rfl, fun _ hj => slots_erase_ne _ _ hj,
      slots_erase_same _ _, owner_erase _ _⟩

end Sys2Proof.Machine
end

section
/-! PROOFS. The echo budget (chapter 6): SET-ECHO-BUDGET (R116), before and after the completion of a transfer (R103 to
R105). -/

namespace Sys2Proof.Machine

/-! ### The result of the last comparison, the budget and its threshold -/

/-- What R104 and R105 keep of a completion: the comparison, the echo budget counter and the threshold. -/
def Hcc.echoRecord (h : Hcc) : Option CompareRecord × Nat × Nat := (h.lastCompare, h.budget, h.threshold)

/-- A guard entry moves the bus and the latched-image record, under either shed, and leaves the echo budget. -/
@[simp] theorem echoRecord_guardEntry (t : Trigger) (s : State) :
    (guardEntry t s).hcc.echoRecord = s.hcc.echoRecord := by
  cases htaking : s.hcc.isTaking with
  | true =>
    rw [(guardEntry_taking htaking).2]
    split <;> rfl
  | false =>
    cases hshed : s.grd.shed with
    | hold =>
      obtain ⟨_, _, hhcc, _⟩ := guardEntry_hold (t := t) hshed htaking
      rw [hhcc]; rfl
    | close =>
      obtain ⟨_, _, hhcc, _⟩ := guardEntry_close (t := t) hshed htaking
      rw [hhcc]; rfl

@[simp] theorem echoRecord_trigger (t : Trigger) (s : State) : (trigger t s).hcc.echoRecord = s.hcc.echoRecord := by
  rcases trigger_cases t s with ⟨_, e⟩ | ⟨_, _, e⟩ | ⟨_, _, e⟩ | ⟨_, _, e⟩ <;> rw [e]
  · rfl
  · rfl
  · rfl
  · exact echoRecord_guardEntry ..

@[simp] theorem echoRecord_triggerWhen (c : Bool) (t : Trigger) (s : State) :
    (triggerWhen c t s).hcc.echoRecord = s.hcc.echoRecord := by
  unfold triggerWhen
  split
  · exact echoRecord_trigger t s
  · rfl

/-- R103 steps 1 to 3 alone write the record. -/
theorem echoRecord_compareEcho (n : Half) (echo : List ModuleEcho) (s : State) :
    (compareEcho n echo s).hcc.echoRecord =
      (some ⟨n, s.hcc.compares, s.mismatched echo⟩, s.hcc.budgetAfter (s.mismatched echo), s.hcc.threshold) := by
  unfold compareEcho
  dsimp only
  split <;> rfl

@[simp] theorem echoRecord_updateStatuses (statuses : List EchoStatus) (s : State) :
    (updateStatuses statuses s).hcc.echoRecord = s.hcc.echoRecord := by
  simp only [updateStatuses, Hcc.echoRecord]

@[simp] theorem echoRecord_reportLevel (s : State) : (reportLevel s).hcc.echoRecord = s.hcc.echoRecord := rfl

@[simp] theorem echoRecord_transfer (h : Hcc) (x : Transfer) : { h with transfer := x }.echoRecord = h.echoRecord := rfl

theorem echoRecord_transferResults (n : Half) (echo : List ModuleEcho) (s : State) :
    (transferResults n echo s).hcc.echoRecord = (compareEcho n echo s).hcc.echoRecord := by
  simp only [transferResults, echoRecord_triggerWhen, echoRecord_reportLevel, echoRecord_transfer,
    echoRecord_updateStatuses]

theorem echoRecord_reportTransfer (n : Half) (s : State) :
    (reportTransfer n s).hcc.echoRecord = s.hcc.echoRecord := by
  unfold reportTransfer orderTake
  repeat' split
  all_goals rfl

/-! ### No exit check passes on the way -/

/-- A guard entry leaves the shaft coasting, so GUARD that was not there before coasts (R139). -/
theorem coasting_trigger {s : State} (t : Trigger) (h : s.seq.state = .guard → s.seq.coasting = true) :
    (trigger t s).seq.state = .guard → (trigger t s).seq.coasting = true := by
  rcases trigger_cases t s with ⟨_, e⟩ | ⟨_, _, e⟩ | ⟨_, _, e⟩ | ⟨_, _, e⟩ <;> rw [e]
  · exact h
  · exact h
  · exact h
  · simp

theorem coasting_triggerWhen {s : State} (c : Bool) (t : Trigger)
    (h : s.seq.state = .guard → s.seq.coasting = true) :
    (triggerWhen c t s).seq.state = .guard → (triggerWhen c t s).seq.coasting = true := by
  unfold triggerWhen
  split
  · exact coasting_trigger t h
  · exact h

theorem compareEcho_seq (n : Half) (echo : List ModuleEcho) (s : State) : (compareEcho n echo s).seq = s.seq := by
  unfold compareEcho
  dsimp only
  split <;> rfl

theorem updateStatuses_seq (statuses : List EchoStatus) (s : State) : (updateStatuses statuses s).seq = s.seq := by
  simp only [updateStatuses]

theorem reportLevel_seq (s : State) : (reportLevel s).seq = s.seq := rfl

theorem coasting_transferResults {s : State} (n : Half) (echo : List ModuleEcho) (h : s.seq.state ≠ .guard) :
    (transferResults n echo s).seq.state = .guard → (transferResults n echo s).seq.coasting = true := by
  have hseq : (updateStatuses (echo.map (·.status)) (compareEcho n echo s)).seq = s.seq := by
    rw [updateStatuses_seq, compareEcho_seq]
  unfold transferResults
  refine coasting_triggerWhen _ _ ?_
  rw [reportLevel_seq]
  refine coasting_triggerWhen _ _ fun hg => ?_
  rw [hseq] at hg
  exact absurd hg h

/-- R170: a shaft that coasts passes no exit check. -/
theorem exitCheck_of_coasting {s : State} (h : s.seq.state = .guard → s.seq.coasting = true) : exitCheck s = s := by
  by_cases hg : s.seq.state = .guard
  · simp [exitCheck, State.mayExit, h hg]
  · exact exitCheck_of_ne hg

/-! ### The comparison and the budget in the words of R104 and R105 -/

theorem compares_eq (h : Hcc) : h.compares = decide (h.latched ≠ .unknown ∧ h.census ≠ 0) :=
  (Bool.decide_and ..).symm

/-- R105: a skipped comparison leaves the counter, a clean one and the last of a run reload it, another takes one. -/
theorem budgetAfter_eq (h : Hcc) (bad : List Nat) :
    h.budgetAfter bad = if h.latched = .unknown ∨ h.census = 0 then h.budget
      else if bad = [] ∨ h.budget ≤ 1 then h.threshold else h.budget - 1 := by
  by_cases hskip : h.latched = .unknown ∨ h.census = 0
  · have hc : h.compares = false := by
      rw [compares_eq]
      exact decide_eq_false fun hboth => hskip.elim hboth.1 hboth.2
    rw [if_pos hskip, Hcc.budgetAfter, hc, if_neg Bool.false_ne_true]
  · have hc : h.compares = true := by
      rw [compares_eq]
      exact decide_eq_true (not_or.1 hskip)
    rw [if_neg hskip, Hcc.budgetAfter, if_pos hc, Hcc.budgetSpent, hc]
    cases bad with
    | nil => simp only [List.isEmpty_nil, Bool.true_or, if_true, true_or]
    | cons m bad =>
      simp only [List.isEmpty_cons, Bool.false_or, Bool.not_false, Bool.true_and, decide_eq_true_eq, reduceCtorEq,
        false_or]

/-- R105 with a full counter: it stays at the threshold or falls by one. -/
theorem budgetAfter_full {h : Hcc} {k : Nat} (bad : List Nat) (hk : 1 ≤ k) (hb : h.budget = k) (ht : h.threshold = k) :
    h.budgetAfter bad = if h.latched = .unknown ∨ h.census = 0 ∨ bad = [] ∨ k = 1 then k else k - 1 := by
  have hone : k ≤ 1 ↔ k = 1 := by omega
  simp only [budgetAfter_eq, hb, ht, hone, ← or_assoc]
  split
  next hskip => simp only [hskip, true_or, if_true]
  next hskip => simp only [hskip, false_or]

/-! ### The completion of a transfer outside GUARD -/

theorem transferEnds_of_ne {s : State} (n : Half) (echo : List ModuleEcho) (h : s.seq.state ≠ .guard) :
    transferEnds n echo s = reportTransfer n (transferResults n echo s) := by
  simp only [transferEnds, exitCheck_of_coasting (coasting_transferResults n echo h), ite_self]

theorem echoRecord_transferEnds {s : State} (n : Half) (echo : List ModuleEcho) (h : s.seq.state ≠ .guard) :
    (transferEnds n echo s).hcc.echoRecord =
      (some ⟨n, s.hcc.compares, s.mismatched echo⟩, s.hcc.budgetAfter (s.mismatched echo), s.hcc.threshold) := by
  rw [transferEnds_of_ne n echo h, echoRecord_reportTransfer, echoRecord_transferResults, echoRecord_compareEcho]

/-- What the completion leaves of the comparison and the echo budget (R104, R105). -/
theorem transferEnds_echo {s : State} (n : Half) (echo : List ModuleEcho) (h : s.seq.state ≠ .guard) :
    (transferEnds n echo s).hcc.lastCompare =
        some ⟨n, decide (s.hcc.latched ≠ .unknown ∧ s.hcc.census ≠ 0), s.mismatched echo⟩ ∧
      (transferEnds n echo s).hcc.budget = s.hcc.budgetAfter (s.mismatched echo) ∧
      (transferEnds n echo s).hcc.threshold = s.hcc.threshold := by
  have hrecord := echoRecord_transferEnds n echo h
  rw [compares_eq] at hrecord
  simpa only [Hcc.echoRecord, Prod.mk.injEq] using hrecord

theorem kept_transferEnds (n : Half) (echo : List ModuleEcho) (s : State) : Kept s (transferEnds n echo s) :=
  ((kept_transferResults n echo s).trans (kept_ite (kept_exitCheck _) (Kept.refl _))).trans (kept_reportTransfer ..)

theorem exec_transferCompletion_shifting {s : State} {n : Half} (h : s.hcc.transfer = .shifting n)
    (echo : List ModuleEcho) : exec (.transferCompletion echo) s = .next (transferEnds n echo s) := by
  show execTransferCompletion echo s = _
  rw [execTransferCompletion, h]

/-! ### SET-ECHO-BUDGET (R116) -/

/-- What an accepted SET-ECHO-BUDGET leaves. -/
def State.refilled (s : State) (k : Nat) : State := { s with hcc := { s.hcc with threshold := k, budget := k } }

theorem setEchoBudget_accepts {k : Nat} (s : State) (hk : 1 ≤ k ∧ k ≤ 255) :
    setEchoBudget k s = accept (s.refilled k) [] := if_pos hk

theorem setEchoBudget_refuses {k : Nat} (s : State) (hk : ¬(1 ≤ k ∧ k ≤ 255)) :
    setEchoBudget k s = refuse s .badArgument := if_neg hk

theorem exec_setEchoBudget_refuses {s : State} {k : Nat} (ho : s.plk.isOpen = true) (hk : ¬(1 ≤ k ∧ k ≤ 255)) :
    exec (.setEchoBudget k) s = .next (s.responded .p .setEchoBudget .badArgument []) :=
  congrArg Host.Outcome.next (request_refuses ho rfl (setEchoBudget_refuses _ hk))

theorem exec_setEchoBudget_accepts {s : State} {k : Nat} (ho : s.plk.isOpen = true) (hk : 1 ≤ k ∧ k ≤ 255) :
    exec (.setEchoBudget k) s = .next ((s.refilled k).responded .p .setEchoBudget .ok []) :=
  congrArg Host.Outcome.next (request_answers (u := s.refilled k) ho rfl (setEchoBudget_accepts _ hk)
    ((isOpen_iff s.plk).1 ho).2.2)

/-! ### Either order -/

/-- A link that took requests takes them still: notices, triggers and transfers leave its receiver. -/
theorem isOpen_of_kept {a b : Link} (h : a.kept b) (ho : a.isOpen = true) : b.isOpen = true := by
  obtain ⟨hrx, hout, hsup⟩ := (isOpen_iff a).1 ho
  exact (isOpen_iff b).2 ⟨h.rx ▸ hrx, (h.idle hout).1, h.suppressed hsup⟩

/-- A completion that finds the counter full counts down from the threshold, at least to 1. -/
theorem transferEnds_full {s : State} {k : Nat} (n : Half) (echo : List ModuleEcho) (hg : s.seq.state ≠ .guard)
    (hk : 1 ≤ k) (hb : s.hcc.budget = k) (ht : s.hcc.threshold = k) :
    1 ≤ (transferEnds n echo s).hcc.budget ∧ (transferEnds n echo s).hcc.budget ≤ k ∧
      (transferEnds n echo s).hcc.threshold = k ∧
      (transferEnds n echo s).hcc.lastCompare =
        some ⟨n, decide (s.hcc.latched ≠ .unknown ∧ s.hcc.census ≠ 0), s.mismatched echo⟩ ∧
      (transferEnds n echo s).hcc.budget =
        if s.hcc.latched = .unknown ∨ s.hcc.census = 0 ∨ s.mismatched echo = [] ∨ k = 1 then k else k - 1 := by
  obtain ⟨hlast, hbudget, hthreshold⟩ := transferEnds_echo n echo hg
  rw [budgetAfter_full _ hk hb ht] at hbudget
  refine ⟨?_, ?_, hthreshold.trans ht, hlast, hbudget⟩ <;> (rw [hbudget]; split <;> omega)

/-- Settles O42, by the range of the value and, in range, the order of the request and the completion. -/
theorem setEchoBudgetRefillsCounter : Obligations.SetEchoBudgetRefillsCounter := by
  intro s k ho
  refine ⟨fun hk => exec_setEchoBudget_refuses ho hk, fun h1 h255 => ?_⟩
  refine ⟨exec_setEchoBudget_accepts ho ⟨h1, h255⟩, fun n echo hn hg => ⟨?_, ?_⟩⟩
  · have hafter := transferEnds_full (s := (s.refilled k).responded .p .setEchoBudget .ok []) n echo
      (by rwa [responded_seq]) h1 (by rw [responded_hcc]; rfl) (by rw [responded_hcc]; rfl)
    rw [responded_hcc] at hafter
    exact ⟨_, _, _, exec_setEchoBudget_accepts ho ⟨h1, h255⟩,
      exec_transferCompletion_shifting (by rw [responded_hcc]; exact hn) echo, hafter⟩
  · obtain ⟨hlast, hbudget, _⟩ := transferEnds_echo n echo hg
    have hopen : (transferEnds n echo s).plk.isOpen = true :=
      isOpen_of_kept ((kept_transferEnds n echo s).links .p) ho
    exact ⟨_, _, _, exec_transferCompletion_shifting hn echo, exec_setEchoBudget_accepts hopen ⟨h1, h255⟩, hlast,
      hbudget.trans (budgetAfter_eq ..), by rw [responded_hcc]; rfl, by rw [responded_hcc]; rfl⟩

end Sys2Proof.Machine
end

section
/-! PROOFS. MOTION FIND and MOTION POSITION (chapter 7): their checks in order, and what each grants (R121, R122). -/

namespace Sys2Proof.Machine

/-! ### The checks that every MOTION request but STOP begins with -/

/-- R121: the checks in their order, with what follows a refusal and what follows a pass. -/
theorem motionRefusal_elim {α : Type} (s : State) (granted : α) (refused : Status → α) :
    s.motionRefusal.elim granted refused =
      if s.seq.state = .presenting then refused .busy
      else if s.seq.state ≠ .ready then refused .wrongState
      else if s.seq.grant ≠ .none then refused .wrongState
      else if s.ang.rest ≠ .atRest then refused .wrongState
      else granted := by
  simp only [State.motionRefusal, apply_ite (Option.elim · granted refused), Option.elim_some, Option.elim_none]

theorem ready_of_motionRefusal {s : State} (h : s.motionRefusal = none) : s.seq.state = .ready := by
  refine Decidable.byContradiction fun hne => ?_
  rw [State.motionRefusal, if_pos hne] at h
  split at h <;> cases h

/-- The checks look at SEQ and the tracker, which taking a request leaves. -/
@[simp] theorem motionRefusal_awaited (s : State) (l : LinkId) (r : Request) :
    (s.awaited l r).motionRefusal = s.motionRefusal := by
  simp only [State.motionRefusal, awaited_seq, awaited_ang]

/-- A MOTION request on an open D-link whose owner refuses by the checks of R121 and otherwise leaves `u`. -/
theorem request_motion {s u : State} {owner : State → State × Reply} {p : List Byte} (ho : s.dlk.isOpen = true)
    (hrefuse : ∀ {t : State} {r : Status}, t.motionRefusal = some r → owner t = refuse t r)
    (hgrant : s.motionRefusal = none → owner (s.awaited .d .motion) = accept (u.awaited .d .motion) p)
    (hsupp : u.dlk.suppressed = s.dlk.suppressed) :
    request .d .motion .good owner s =
      s.motionRefusal.elim (u.responded .d .motion .ok p) fun r => s.responded .d .motion r [] := by
  cases h : s.motionRefusal with
  | some r => exact request_refuses ho rfl (hrefuse ((motionRefusal_awaited ..).trans h))
  | none => exact request_answers ho rfl (hgrant h) (hsupp.trans ((isOpen_iff s.dlk).1 ho).2.2)

/-! ### FIND and POSITION at SEQ -/

theorem motionFind_refuses {s : State} {r : Status} (h : s.motionRefusal = some r) : motionFind s = refuse s r := by
  rw [motionFind, h]

theorem motionPosition_refuses {s : State} {r : Status} (h : s.motionRefusal = some r) :
    motionPosition s = refuse s r := by
  rw [motionPosition, h]

/-- R119, R121: the answer carries FIND and FINDING. -/
theorem motionFind_grants {s : State} (h : s.motionRefusal = none) : motionFind s = accept (grantFind s) [2, 5] := by
  rw [motionFind, h]
  rfl

/-- R119, R122: the answer carries POSITION and the state the checks found. -/
theorem motionPosition_grants {s : State} (h : s.motionRefusal = none) :
    motionPosition s = accept (grantPosition s) [3, 2] := by
  have hready : s.seq.state = .ready := ready_of_motionRefusal h
  rw [motionPosition, h]
  simp only [motionAnswer, grantPosition, hready]
  rfl

/-! ### FIND and POSITION on the D-link -/

section
variable {s : State} (ho : s.dlk.isOpen = true)
include ho

theorem exec_motionFind : exec .motionFind s = .next (s.motionRefusal.elim
    ((grantFind s).responded .d .motion .ok [2, 5]) fun r => s.responded .d .motion r []) :=
  congrArg Host.Outcome.next
    (request_motion ho motionFind_refuses (fun h => motionFind_grants ((motionRefusal_awaited ..).trans h)) rfl)

theorem exec_motionPosition : exec .motionPosition s = .next (s.motionRefusal.elim
    ((grantPosition s).responded .d .motion .ok [3, 2]) fun r => s.responded .d .motion r []) :=
  congrArg Host.Outcome.next
    (request_motion ho motionPosition_refuses (fun h => motionPosition_grants ((motionRefusal_awaited ..).trans h)) rfl)

end

/-- Settles O23: both requests go by the checks of R121 in their order, then by `grantFind` and `grantPosition`. -/
theorem findAndPositionGranted : Obligations.FindAndPositionGranted := by
  intro s ho
  constructor
  · rw [exec_motionFind ho, motionRefusal_elim]
    rfl
  · rw [exec_motionPosition ho, motionRefusal_elim]
    rfl

end Sys2Proof.Machine
end

section
/-! PROOFS. CLEAR-GUARD-COUNT (R169), before and after a counting trigger (R164). -/

namespace Sys2Proof.Machine

/-! ### The step of a trigger that enters guard (R164 step 1) -/

section
variable {x : Trigger} {s : State} (hq : s.seq.state.guarded) (he : s.grd.isEnabled x = true)
include hq he

theorem trigger_enters_state : (trigger x s).seq.state = if s.grd.entersHalted x then .halted else .guard := by
  rw [trigger_enters hq he, guardEntry_seq]
  rfl

theorem trigger_enters_count : (trigger x s).grd.count = s.grd.countAfter x := by
  rw [trigger_enters hq he, guardEntry_grd]
  rfl

end

section
variable {g : Grd} {x : Trigger}

theorem entersHalted_iff :
    g.entersHalted x = true ↔ g.counts.get x.idx = true ∧ 0 < g.limit ∧ g.limit ≤ g.count := by
  simp [Grd.entersHalted, and_assoc]

theorem entersHalted_at_limit (hc : g.counts.get x.idx = true) (h0 : 0 < g.limit) (hl : g.limit ≤ g.count) :
    g.entersHalted x = true :=
  entersHalted_iff.2 ⟨hc, h0, hl⟩

theorem entersHalted_below_limit (h : g.limit = 0 ∨ g.count < g.limit) : g.entersHalted x = false :=
  Bool.eq_false_iff.2 fun hx => by
    obtain ⟨_, h0, hl⟩ := entersHalted_iff.1 hx
    omega

theorem countAfter_below_limit (hc : g.counts.get x.idx = true) (h : g.limit = 0 ∨ g.count < g.limit) :
    g.countAfter x = raiseTo 15 g.count :=
  if_pos ⟨hc, entersHalted_below_limit h⟩

end

/-! ### CLEAR-GUARD-COUNT (R169) -/

/-- What CLEAR-GUARD-COUNT makes of the guard. -/
def State.countZeroed (s : State) : State := { s with grd := { s.grd with count := 0 } }

theorem exec_clearGuardCount {s : State} (ho : s.plk.isOpen = true) :
    exec .clearGuardCount s =
      .next (s.countZeroed.responded .p .clearGuardCount .ok [BitVec.ofNat 8 s.grd.count]) :=
  congrArg Host.Outcome.next (request_answers (u := s.countZeroed) ho rfl rfl ((isOpen_iff s.plk).1 ho).2.2)

/-- With the count at 0, every limit is either 0 or above the count: the entry is to GUARD and counts 1. -/
theorem trigger_of_count_zero {x : Trigger} {s : State} (hq : s.seq.state.guarded) (he : s.grd.isEnabled x = true)
    (hc : s.grd.counts.get x.idx = true) (h0 : s.grd.count = 0) :
    (trigger x s).seq.state = .guard ∧ (trigger x s).grd.count = 1 := by
  have hbelow : s.grd.limit = 0 ∨ s.grd.count < s.grd.limit := by omega
  constructor
  · rw [trigger_enters_state hq he, entersHalted_below_limit hbelow]
    rfl
  · rw [trigger_enters_count hq he, countAfter_below_limit hc hbelow, h0]
    rfl

/-- Settles O58: the request alone, then the trigger on the zeroed count, then the request on what the trigger left. -/
theorem clearGuardCountZeroesCount : Obligations.ClearGuardCountZeroesCount := by
  intro s ho
  refine ⟨exec_clearGuardCount ho, fun x hq he hc => ⟨⟨_, exec_clearGuardCount ho, ?_⟩, ?_⟩⟩
  · apply trigger_of_count_zero <;> simp only [responded_seq, responded_grd]
    · exact hq
    · exact he
    · exact hc
    · rfl
  · have hopen : (trigger x s).plk.isOpen = true := isOpen_of_kept ((kept_trigger x s).links .p) ho
    refine ⟨_, exec_clearGuardCount hopen, ?_, ?_, fun h0 hl => ?_, fun hbelow => ?_⟩
    · rw [responded_grd]
      rfl
    · rw [responded_seq]
      rfl
    · rw [responded_seq]
      exact (trigger_enters_state hq he).trans (if_pos (entersHalted_at_limit hc h0 hl))
    · rw [responded_seq]
      exact (trigger_enters_state hq he).trans (if_neg (by simp [entersHalted_below_limit hbelow]))

end Sys2Proof.Machine
end

section
/-! PROOFS. SET-NOTICE-MASK on each of the three links (R187), and the attention line it sets (R185). -/

namespace Sys2Proof.Machine

/-! ### The mask and the line -/

theorem mem_noticeKind_all (n : NoticeKind) : n ∈ NoticeKind.all := by cases n <;> decide

/-- R185: the line is active exactly while a notice stands that the mask does not cover. -/
theorem attentionOf_iff (notices mask : List NoticeKind) :
    attentionOf notices mask = true ↔ ∃ n ∈ notices, n ∉ mask := by
  simp only [attentionOf, List.any_eq_true, decide_eq_true_eq]

/-- The mask is kept by rising code; a kind is in it exactly when the request names it. -/
theorem mem_setMask_mask (mask : List NoticeKind) (k : Link) (n : NoticeKind) :
    n ∈ (k.setMask mask).mask ↔ n ∈ mask := by
  simp only [Link.setMask, List.mem_filter, mem_noticeKind_all, true_and, decide_eq_true_eq]

/-- The line is set by the new mask, in the same step. -/
theorem setMask_attention_iff (mask : List NoticeKind) (k : Link) :
    (k.setMask mask).attention = true ↔ ∃ n ∈ k.notices, n ∉ mask := by
  have hnew : (k.setMask mask).attention = attentionOf k.notices (k.setMask mask).mask := rfl
  simp only [hnew, attentionOf_iff, mem_setMask_mask]

/-! ### SET-NOTICE-MASK at the link interface -/

/-- What an accepted SET-NOTICE-MASK leaves. -/
def State.masked (s : State) (l : LinkId) (mask : List NoticeKind) : State := s.modLink l (Link.setMask mask)

@[simp] theorem link_masked (s : State) (l : LinkId) (mask : List NoticeKind) :
    (s.masked l mask).link l = (s.link l).setMask mask := link_modLink ..

/-- The mask and the line are apart from the receiver: the mask may be set before the frame is taken or after. -/
theorem masked_awaited (s : State) (l : LinkId) (mask : List NoticeKind) (r : Request) :
    (s.awaited l r).masked l mask = (s.masked l mask).awaited l r := by
  simp only [State.masked, State.awaited, modLink_modLink]
  rfl

/-- The line of the new mask looks at the notices, which taking a request leaves. -/
theorem setMask_attention_awaited (s : State) (l : LinkId) (mask : List NoticeKind) (r : Request) :
    (((s.awaited l r).link l).setMask mask).attention = ((s.link l).setMask mask).attention := by
  rw [State.awaited, link_modLink]
  rfl

theorem setNoticeMask_refuses {l : LinkId} {mask : List NoticeKind} (s : State) (h : ∃ n ∈ mask, carries l n = false) :
    setNoticeMask l mask s = refuse s .badArgument := by
  have hnot : ¬mask.all (carries l) = true := by simpa using h
  exact if_neg hnot

theorem setNoticeMask_accepts {l : LinkId} {mask : List NoticeKind} (s : State) (h : ∀ n ∈ mask, carries l n = true) :
    setNoticeMask l mask s = accept (s.masked l mask) (bFlag ((s.masked l mask).link l).attention) :=
  if_pos (List.all_eq_true.2 h)

/-! ### SET_NOTICE_MASK on its link -/

section
variable {l : LinkId} {mask : List NoticeKind} {s : State} (ho : (s.link l).isOpen = true)
include ho

theorem exec_setNoticeMask_refuses (h : ∃ n ∈ mask, carries l n = false) :
    exec (.setNoticeMask l mask) s = .next (s.responded l .setNoticeMask .badArgument []) :=
  congrArg Host.Outcome.next (request_refuses ho rfl (setNoticeMask_refuses _ h))

theorem exec_setNoticeMask_accepts (h : ∀ n ∈ mask, carries l n = true) :
    exec (.setNoticeMask l mask) s = .next ((s.masked l mask).responded l .setNoticeMask .ok
      (bFlag ((s.link l).setMask mask).attention)) := by
  have howner : setNoticeMask l mask (s.awaited l .setNoticeMask) =
      accept ((s.masked l mask).awaited l .setNoticeMask) (bFlag ((s.link l).setMask mask).attention) := by
    rw [setNoticeMask_accepts _ h, link_masked, masked_awaited, setMask_attention_awaited]
  have hsupp : ((s.masked l mask).link l).suppressed = false := by
    rw [link_masked]
    exact ((isOpen_iff (s.link l)).1 ho).2.2
  exact congrArg Host.Outcome.next (request_answers ho rfl howner hsupp)

end

/-- What an accepted SET-NOTICE-MASK writes: mask and line, and no other field of the link. -/
theorem masked_eq (s : State) (l : LinkId) (mask : List NoticeKind) :
    s.masked l mask = s.modLink l fun k =>
      { k with mask := ((s.link l).setMask mask).mask, attention := ((s.link l).setMask mask).attention } :=
  modLink_congr s l rfl

theorem bFlag_eq (b : Bool) : bFlag b = [if b then 1 else 0] := by cases b <;> rfl

/-- Settles O18, by whether the link carries every kind of the set. -/
theorem setNoticeMaskSetsAttention : Obligations.SetNoticeMaskSetsAttention := by
  intro l mask s ho
  refine ⟨exec_setNoticeMask_refuses ho, fun h => ?_⟩
  refine ⟨((s.link l).setMask mask).mask, ((s.link l).setMask mask).attention, mem_setMask_mask mask _,
    setMask_attention_iff mask _, ?_⟩
  rw [exec_setNoticeMask_accepts ho h, masked_eq, bFlag_eq]

end Sys2Proof.Machine
end

section
/-! PROOFS. The invariants of sections 1 to 10, the induction packaged once: `Steady` lists the elementary updates from which
every operation of the weaving side is built (`Hooked` those of the links, the weft unit and the hook chain), `Governed` adds
those of the settings, and `Commanded` those of the receivers, of the queue and of power-on reset. A property that each
elementary update keeps is kept by every command and so by every step. -/

namespace Sys2Proof.Machine

/-! ### The elementary updates -/

/-- R185 at one link. -/
def Link.attentive (k : Link) : Prop := k.attention = true ↔ ∃ n ∈ k.notices, n ∉ k.mask

/-- What an owner brings on a link: notices with their details, and answers of a request that it has accepted. -/
def Link.noted (a b : Link) : Prop := a.kept b ∧ ∀ r, b.response = some r → a.response = some r ∨ r.status = .ok

/-- What the rest of the block reads of a history: the picks and the applied changes, oldest first. -/
def Seq.program (q : Seq) : List (Cursor × Option AppliedChange) := q.history.map fun e => (e.cursor, e.applied)

/-- The cursor set to `c` with the state `x`, the claim before the release (R30, R56). -/
def placeCursor (x : SeqState) (c : Cursor) (s : State) : State :=
  releaseCursor s.seq.cursor
    { claim .cursor c.slot s with seq := { s.seq with cursor := some c, serial := c.serial, state := x } }

/-- R128 without the notices of CHU and the count of GRD: entry, comparators, head of the queue, cursor. -/
def commitCore (p : Plan) (s : State) : State :=
  let hits := s.chu.hitsOn p
  let plain := s.advance p.cursor
  let o := headAt s.chu.queue hits plain.2
  let applied := if o.applies then o.head else none
  let s := appendEntry (entryOf p hits o.counted (applied.map (·.record))) s
  let s := { s with
    seq := { s.seq with woven := s.seq.woven + 1 }
    chu := { s.chu.countHits hits with queue := queueAfter s.chu.queue o } }
  match applied with
  | some c => releaseChange c (moveCursor (s.target c p.cursor) s)
  | none => moveCursor plain.1 s

/-- A property that the elementary updates of the links, the weft unit and the hook chain keep. Each update names what it
must respect; a property that does not look at the units an update changes keeps it by computation, which is the default
proof of the field. -/
structure Hooked (P : State → Prop) : Prop where
  /-- Notices, and answers of accepted requests: the receiver and a request that waits stay. -/
  link : ∀ {s : State} (l : LinkId) (f : Link → Link), P s → ((s.link l).attentive → (f (s.link l)).attentive) →
    (s.link l).noted (f (s.link l)) → P (s.modLink l f) := by intro s l f h _ _; cases l <;> exact h
  wft : ∀ {s : State} (w : Wft), P s → (s.weftSound → { s with wft := w }.weftSound) → P { s with wft := w } := by
    intros; assumption
  /-- At HCC the latched pick, the released holds and a TAKE that they wait for stay. -/
  hcc : ∀ {s : State} (h : Hcc), P s → (s.budgetSound → { s with hcc := h }.budgetSound) →
    h.latched.plan.map (·.cursor) = s.hcc.latched.plan.map (·.cursor) → h.holdsReleased = s.hcc.holdsReleased →
    (h.holdsReleased = true → s.hcc.isTaking = true → h.isTaking = true) → P { s with hcc := h } := by
    intros; assumption
  /-- In the staging buffer the pick stays. -/
  xpe : ∀ {s : State} (x : Xpe), P s → x.staging.plan.map (·.cursor) = s.xpe.staging.plan.map (·.cursor) →
    P { s with xpe := x } := by intros; assumption
  /-- R72: the staged pick gone with its hold. -/
  unstage : ∀ {s : State} (p : Plan), P s → s.xpe.staging.plan = some p → s.hcc.isTaking = false →
    P (release .staged p.cursor.slot { s with xpe := ⟨none, .empty⟩ }) := by intros; assumption
  /-- R111: the latched pick gone with its hold. -/
  unlatch : ∀ {s : State} (p : Plan) (h : Hcc), P s → s.hcc.latched.plan = some p → h.latched.plan = none →
    (s.budgetSound → { s with hcc := h }.budgetSound) → h.holdsReleased = s.hcc.holdsReleased →
    (h.holdsReleased = true → s.hcc.isTaking = true → h.isTaking = true) →
    P (release .latched p.cursor.slot { s with hcc := h }) := by intros; assumption

/-- A property that every elementary update of the weaving side keeps. -/
structure Steady (P : State → Prop) : Prop extends Hooked P where
  grd : ∀ {s : State} (g : Grd), P s → (s.guardSound → { s with grd := g }.guardSound) →
    g.stopRequest = s.grd.stopRequest → P { s with grd := g } := by intros; assumption
  ang : ∀ {s : State} (a : Ang), P s → (s.trackerSound → { s with ang := a }.trackerSound) → P { s with ang := a } := by
    intros; assumption
  draws : ∀ {s : State} (k : Nat), P s → P { s with draws := k } := by intros; assumption
  /-- SEQ with state, cursor, serial counter and program as they are. -/
  seq : ∀ {s : State} (q : Seq), P s → q.state = s.seq.state → q.cursor = s.seq.cursor → q.serial = s.seq.serial →
    q.program = s.seq.program → P { s with seq := q }
  /-- A move between the states in which picks are presented, woven and found. -/
  move : ∀ {s : State} (x : SeqState), P s → s.seq.state.guarded → x.guarded →
    (s.seq.state = .running → s.ang.stallWatch = .off) → P { s with seq := { s.seq with state := x } }
  /-- R164: into guard, with the stop request and the stall watch off in the same step. -/
  intoGuard : ∀ {s : State} (x : SeqState), P s → s.seq.state.guarded → x = .guard ∨ x = .halted →
    P (stallOff { s with seq := { s.seq with state := x }, grd := { s.grd with stopRequest := true } })
  /-- R170: out of guard, with the stop request in the same step. -/
  leaveGuard : ∀ {s : State} (x : SeqState), P s → s.seq.state = .guard ∨ s.seq.state = .halted →
    x = .ready ∨ x = .presenting →
    P { s with seq := { s.seq with state := x }, grd := { s.grd with stopRequest := false } }
  /-- The change queue with its slots as they are. -/
  chu : ∀ {s : State} (u : Chu), P s → u.queue.map (·.slot) = s.chu.queue.map (·.slot) → P { s with chu := u } := by
    intros; assumption
  /-- R62: the cursor pick staged with its hold. -/
  stage : ∀ {s : State} (p : Plan) (j : Job), P s → s.seq.cursor = some p.cursor → s.xpe.staging = .empty →
    s.hcc.isTaking = false → P (claim .staged p.cursor.slot { s with xpe := ⟨some j, .filling p⟩ }) := by
    intros; assumption
  /-- R109: the staged pick latched. -/
  latch : ∀ {s : State} (p : Plan) (i : List Bool), P s → s.xpe.staging = .complete p i →
    s.hcc.holdsReleased = false → P (release .staged p.cursor.slot (releaseLatched s.hcc.latched
      (claim .latched p.cursor.slot { s with
        hcc := { s.hcc with transfer := .idle, latched := .pick p i }, xpe := { s.xpe with staging := .empty } })))
  /-- R110, R143: the TAKE that RESET-SEQUENCER met is over. -/
  closeReleased : ∀ {s : State}, P s → s.hcc.holdsReleased = true → P (closeReleased s) := by intros; assumption
  /-- R128. -/
  commit : ∀ {s : State} (p : Plan), P s → s.pendingPlan = some p → P (commitCore p s)
  /-- R135. -/
  unwind : ∀ {s : State} (e : HistEntry), P s → s.seq.history.getLast? = some e → P (unwind e s)

end Sys2Proof.Machine
end

section
/-! PROOFS. What the elementary updates keep, the operations of the weaving side keep: notices, triggers, guard entry,
planning, jobs, transfers, the PRESENT job, READY and guard exit, verdicts, rest and TAKE. -/

namespace Sys2Proof.Machine

/-! ### When the bounds are not concerned -/

theorem weftSound_groups {s : State} {w : Wft} (hf : w.feeders = s.wft.feeders) (hl : w.limit = s.wft.limit)
    (he : w.extra = s.wft.extra) (hs : w.stray = s.wft.stray) (h : s.weftSound) : { s with wft := w }.weftSound := by
  simpa only [State.weftSound, hf, hl, he, hs] using h

theorem budgetSound_bus {s : State} {h : Hcc} (hb : h.budget = s.hcc.budget) (ht : h.threshold = s.hcc.threshold)
    (hs : s.budgetSound) : { s with hcc := h }.budgetSound := by
  simpa only [State.budgetSound, hb, ht] using hs

theorem guardSound_levels {s : State} {g : Grd} (he : g.enabled = s.grd.enabled) (hl : g.limit = s.grd.limit)
    (hc : g.count = s.grd.count) (h : s.guardSound) : { s with grd := g }.guardSound := by
  simpa only [State.guardSound, Grd.isEnabled, he, hl, hc] using h

theorem Link.attentive_setNotices (k : Link) (l : List NoticeKind) : (k.setNotices l).attentive :=
  attentionOf_iff ..

theorem Link.attentive_raise (n : NoticeKind) (k : Link) : (Link.raise n k).attentive := Link.attentive_setNotices ..

/-- A link whose notices, mask and line stay is as attentive as before. -/
theorem Link.attentive_of_same {a b : Link} (hn : b.notices = a.notices) (hm : b.mask = a.mask)
    (hl : b.attention = a.attention) (h : a.attentive) : b.attentive := by
  simpa only [Link.attentive, hn, hm, hl] using h

/-- A detail of a notice is no part of a request. -/
theorem Link.noted_detail (k : Link) (d : Option Half) (t : Option Trigger) :
    k.noted { k with droppedId := d, ignored := t } :=
  ⟨⟨rfl, rfl, rfl, rfl, fun _ h => h, id, fun _ => rfl, fun h => ⟨h, rfl, rfl⟩⟩, fun _ h => .inl h⟩

theorem Link.noted_raise (n : NoticeKind) (k : Link) : k.noted (Link.raise n k) :=
  ⟨Link.kept_raise n k, fun _ h => .inl h⟩

theorem Link.noted_answer {r : Response} (hr : r.status = .ok) (k : Link) : k.noted (Link.answer r k) := by
  refine ⟨Link.kept_answer r k, fun a ha => ?_⟩
  unfold Link.answer at ha
  split at ha
  · exact .inl ha
  · split at ha
    · cases ha
    · injection ha with ha; rw [← ha]; exact .inr hr

theorem Link.attentive_answer (r : Response) (k : Link) (h : k.attentive) : (Link.answer r k).attentive :=
  Link.attentive_of_same (answer_notices ..) (answer_mask ..) (answer_attention ..) h

/-- The count that an entry leaves keeps the limit (R164 step 1). -/
theorem guardSound_countAfter {s : State} (t : Trigger) (h : s.guardSound) : (recordEntry t s).guardSound := by
  obtain ⟨he, hl, hc, hle⟩ := h
  refine ⟨he, hl, ?_, fun h0 => ?_⟩
  · show s.grd.countAfter t ≤ 15
    unfold Grd.countAfter raiseTo
    split <;> (try split) <;> omega
  · show s.grd.countAfter t ≤ s.grd.limit
    unfold Grd.countAfter raiseTo
    split
    next hcond =>
      have hlt : s.grd.count < s.grd.limit := by
        refine Nat.lt_of_not_le fun hge => ?_
        have := entersHalted_at_limit hcond.1 (Nat.pos_of_ne_zero h0) hge
        rw [this] at hcond
        exact absurd hcond.2 (by simp)
      split <;> omega
    · exact hle h0

namespace Hooked
variable {P : State → Prop} (h : Hooked P) {s : State}
include h

/-! ### Notices and the hook chain -/

theorem raise (l : LinkId) (n : NoticeKind) (hs : P s) : P (raise l n s) :=
  h.link l _ hs (fun _ => Link.attentive_raise n _) (Link.noted_raise n _)

/-- The answer of an accepted request. -/
theorem answer (l : LinkId) (r : Response) (hr : r.status = .ok) (hs : P s) : P (answer l r s) :=
  h.link l _ hs (Link.attentive_answer r _) (Link.noted_answer hr _)

theorem raiseIgnored (t : Trigger) (hs : P s) : P (raiseIgnored t s) :=
  h.raise _ _ (h.link .p _ hs id (Link.noted_detail _ _ _))

theorem raiseDropped (i : Half) (hs : P s) : P (raiseDropped i s) :=
  h.raise _ _ (h.link .p _ hs id (Link.noted_detail _ _ _))

theorem departed (q : SeqState) (hs : P s) : P (departed q s) := by
  unfold Machine.departed; split
  · exact h.raise _ _ hs
  · exact hs

theorem transferTo {x : Hcc} (hs : P s) (hb : x.budget = s.hcc.budget) (ht : x.threshold = s.hcc.threshold)
    (hl : x.latched = s.hcc.latched) (hr : x.holdsReleased = s.hcc.holdsReleased)
    (hk : s.hcc.isTaking = true → x.isTaking = true) : P { s with hcc := x } :=
  h.hcc x hs (budgetSound_bus hb ht) (by rw [hl]) hr fun _ => hk

theorem bus {x : Hcc} (hs : P s) (hb : x.budget = s.hcc.budget) (ht : x.threshold = s.hcc.threshold)
    (hl : x.latched = s.hcc.latched) (hr : x.holdsReleased = s.hcc.holdsReleased)
    (hk : x.transfer = s.hcc.transfer) : P { s with hcc := x } :=
  h.transferTo hs hb ht hl hr fun ht => by simpa only [Hcc.isTaking, hk] using ht

theorem answerModules (r : List Byte) (clear : List Nat) (hs : P s) : P (answerModules r clear s) := by
  have h1 := h.answer .p ⟨.ok, modulesRecord s.hcc ++ r⟩ rfl hs
  unfold Machine.answerModules
  generalize Machine.answer .p ⟨.ok, modulesRecord s.hcc ++ r⟩ s = t at h1 ⊢
  exact h.bus h1 rfl rfl rfl rfl rfl

theorem abandonRefresh (hr : s.hcc.transfer = .refreshing) (hs : P s) : P (abandonRefresh s) := by
  have h1 : P { s with hcc := { s.hcc with transfer := .idle } } :=
    h.transferTo hs rfl rfl rfl rfl fun ht => by simp [Hcc.isTaking, hr] at ht
  have h2 := h.answerModules (b8 1) s.hcc.refreshClear h1
  unfold Machine.abandonRefresh
  generalize Machine.answerModules _ _ _ = t at h2 ⊢
  exact h.bus h2 rfl rfl rfl rfl rfl

theorem endRefresh (hs : P s) : P (endRefresh s) := by
  unfold Machine.endRefresh; split
  · exact h.abandonRefresh ‹_› hs
  · exact hs

theorem abandonTransfer (hs : P s) : P (abandonTransfer s) := by
  unfold Machine.abandonTransfer; split
  case h_1 | h_2 => exact hs
  case h_3 hr => exact h.abandonRefresh hr hs
  case h_4 n ht | h_5 n ht => exact h.transferTo hs rfl rfl rfl rfl fun hx => by simp [Hcc.isTaking, ht] at hx

/-- R111: whatever was latched is gone, with its hold. -/
theorem unlatched {x : Hcc} (hs : P s) (hb : x.budget = s.hcc.budget) (ht : x.threshold = s.hcc.threshold)
    (hl : x.latched.plan = none) (hr : x.holdsReleased = s.hcc.holdsReleased)
    (hk : s.hcc.isTaking = true → x.isTaking = true) : P (releaseLatched s.hcc.latched { s with hcc := x }) := by
  unfold releaseLatched; split
  next p hp => exact h.unlatch p x hs hp hl (budgetSound_bus hb ht) hr fun _ => hk
  next hp => exact h.hcc x hs (budgetSound_bus hb ht) (by rw [hl, hp]) hr fun _ => hk

theorem dropAll (hs : P s) : P (dropAll s) := by
  cases ht : s.hcc.isTaking with
  | true =>
    rw [dropAll_taking ht]
    exact h.bus hs rfl rfl rfl rfl rfl
  | false =>
    have he := h.endRefresh hs
    have hte : (Machine.endRefresh s).hcc.isTaking = false := by
      unfold Machine.endRefresh; split
      · simp [Hcc.isTaking]
      · exact ht
    have hd : P (releaseLatched (Machine.endRefresh s).hcc.latched { Machine.endRefresh s with
        hcc := { (Machine.endRefresh s).hcc with transfer := .idle, latched := .closed, lastStrobe := some .drop } }) :=
      h.unlatched he rfl rfl rfl rfl fun hx => by rw [hte] at hx; cases hx
    unfold Machine.dropAll
    split
    next hx => simp [Hcc.isTaking, hx] at ht
    · exact hd

theorem restore (g : Option PlannedGroup) (hs : P s) : P { s with wft := s.wft.restore g } :=
  h.wft _ hs (weftSound_groups (by simp) (by simp) (by simp) (by simp))

theorem discardStaging (hs : P s) : P (discardStaging s) := by
  cases ht : s.hcc.isTaking with
  | true => rw [discardStaging_taking ht]; exact hs
  | false =>
    have hidle : ∀ {u : State} (x : Transfer), P u → u.hcc.isTaking = false →
        P { u with hcc := { u.hcc with transfer := x } } :=
      fun x hu htu => h.transferTo hu rfl rfl rfl rfl fun hx => by rw [htu] at hx; cases hx
    unfold Machine.discardStaging
    split
    next hx => simp [Hcc.isTaking, hx] at ht
    · split
      next he => exact h.xpe ⟨none, .empty⟩ hs (by rw [he])
      next p he => exact h.restore p.group (h.unstage p hs (by rw [he, Staging.plan]) ht)
      next p i he => exact hidle _ (h.restore p.group (h.unstage p hs (by rw [he, Staging.plan]) ht)) ht

theorem shedHooks (hs : P s) : P (shedHooks s) := by
  unfold Machine.shedHooks; split
  · exact h.abandonTransfer hs
  · exact h.dropAll hs

theorem interruptWindow (hs : P s) : P (interruptWindow s) := h.wft _ hs (weftSound_groups rfl rfl rfl rfl)

end Hooked

namespace Steady
variable {P : State → Prop} (h : Steady P) {s : State}
include h

/-! ### Triggers -/

theorem recordEntry (t : Trigger) (hs : P s) : P (recordEntry t s) :=
  h.grd _ hs (guardSound_countAfter t) rfl

theorem seqIntoGuard (b : Bool) (hg : s.seq.state.guarded) (hs : P s) : P (seqIntoGuard b s) := by
  have h1 := h.intoGuard (if b then .halted else .guard) hs hg (by cases b <;> simp)
  have h2 := h.seq { s.seq with
    state := if b then .halted else .guard, grant := .none, coasting := true, present := none, findWaiting := 0,
    presentWaiting := false } h1 rfl rfl rfl rfl
  exact h.departed _ h2

theorem entryNotices (b : Bool) (hs : P s) : P (entryNotices b s) := by
  cases b <;> exact h.raise _ _ (h.raise _ _ (h.raise _ _ (h.raise _ _ hs)))

theorem guardEntry (t : Trigger) (hg : s.seq.state.guarded) (hs : P s) : P (guardEntry t s) :=
  h.entryNotices _ (h.seqIntoGuard _ (by simpa using hg)
    (h.shedHooks (h.discardStaging (h.interruptWindow (h.recordEntry t hs)))))

theorem countTrigger (t : Trigger) (hs : P s) : P (countTrigger t s) := h.grd _ hs (guardSound_levels rfl rfl rfl) rfl

theorem trigger (t : Trigger) (hs : P s) : P (trigger t s) := by
  have hc := h.countTrigger t hs
  rcases trigger_cases t s with ⟨_, e⟩ | ⟨_, _, e⟩ | ⟨_, _, e⟩ | ⟨hg, _, e⟩ <;> rw [e]
  · exact hc
  · exact h.raiseIgnored t hc
  · exact h.grd _ hc (guardSound_levels rfl rfl rfl) rfl
  · exact h.guardEntry t hg hc

theorem triggerWhen (c : Bool) (t : Trigger) (hs : P s) : P (triggerWhen c t s) := by
  unfold Machine.triggerWhen; split
  · exact h.trigger t hs
  · exact hs

theorem unsanctioned (hs : P s) : P (unsanctioned s) := by
  unfold Machine.unsanctioned
  dsimp only
  split
  · exact h.raise _ _ hs
  · exact h.trigger _ (h.raise _ _ hs)

/-! ### Planning -/

theorem chosen (back : Bool) (g : Option PlannedGroup) (x : Weft) (hs : P s) :
    P { s with wft := ((if back then s.wft.restore g else s.wft).choose x).wft } := by
  obtain ⟨v, hv⟩ := replan_wft back s.wft g x
  rw [hv]
  exact h.wft _ hs (weftSound_groups rfl rfl rfl rfl)

theorem replanPending (back : Bool) (hs : P s) : P (replanPending back s) := by
  unfold Machine.replanPending; split
  · exact hs
  next p _ =>
    refine h.hcc _ (h.chosen back p.group (s.cardOf p.cursor).weft hs) (budgetSound_bus rfl rfl) ?_ rfl fun _ => id
    show (Latched.modPlan _ s.hcc.latched).plan.map _ = s.hcc.latched.plan.map _
    cases s.hcc.latched <;> rfl

theorem replanStaged (back : Bool) (hs : P s) : P (replanStaged back s) := by
  unfold Machine.replanStaged; split
  · exact hs
  next p _ =>
    refine h.xpe _ (h.chosen back p.group (s.cardOf p.cursor).weft hs) ?_
    show (Staging.modPlan _ s.xpe.staging).plan.map _ = s.xpe.staging.plan.map _
    cases s.xpe.staging <;> rfl

theorem replanned (b p q : Bool) (hs : P s) : P (replanned b p q s) := by
  unfold Machine.replanned
  dsimp only
  refine h.triggerWhen _ _ ?_
  split
  · exact h.raise _ _ (h.raise _ _ hs)
  · exact h.raise _ _ hs

theorem replan (p q : Bool) (hs : P s) : P (replan p q s) := by
  unfold Machine.replan
  dsimp only
  have h1 : P (if p then Machine.replanPending true s else s) := by
    split
    · exact h.replanPending _ hs
    · exact hs
  split
  · refine h.replanned _ _ _ ?_
    split
    · exact h.replanStaged _ h1
    · exact h1
  · exact hs

theorem replanFrom (f : Fin 8) (hs : P s) : P (replanFrom f s) := h.replan _ _ hs

theorem fillPlans (hs : P s) : P (fillPlans s) := h.replan _ _ hs

theorem replanAfresh (g : Fin 8) (hs : P s) : P (replanAfresh g s) := by
  unfold Machine.replanAfresh; split
  · split
    · exact h.replanned _ _ _ (h.replanPending _ hs)
    · exact hs
  · exact hs

end Steady

/-! ### Feeders -/

/-- R76 at one feeder. -/
def Feeder.sound (f : Feeder) : Prop := f.failures ≤ 7 ∧ f.total ≤ 65535 ∧ (f.state = .suspended → f.mark = true)

theorem weftSound_setFeeder {s : State} {i : Fin 8} {x : Feeder} (hx : (s.wft.feeders.get i).sound → x.sound)
    (h : s.weftSound) : { s with wft := s.wft.setFeeder i x }.weftSound := by
  obtain ⟨h1, h2, h3, h4, h5⟩ := h
  refine ⟨h1, h2, h3, h4, fun f => ?_⟩
  show Feeder.sound ((upd s.wft.feeders i x).get f)
  rw [get_upd_eq]
  split
  · exact hx (h5 i)
  · exact h5 f

theorem Feeder.sound_goIn {f : Feeder} (h : f.sound) : f.goIn.sound := by
  obtain ⟨h1, h2, h3⟩ := h
  unfold Feeder.goIn
  split
  · refine ⟨h1, h2, fun hs => ?_⟩
    cases hm : f.mark
    · simp [hm] at hs
    · rfl
  · exact ⟨h1, h2, h3⟩
  · exact ⟨h1, h2, h3⟩

theorem Feeder.sound_goOut {f : Feeder} (h : f.sound) : f.goOut.sound := ⟨h.1, h.2.1, nofun⟩

theorem Feeder.sound_restored {f : Feeder} (h : f.sound) : f.restored.sound := by
  refine ⟨Nat.zero_le _, h.2.1, fun hs => ?_⟩
  simp only [Feeder.restored] at hs
  split at hs
  · cases hs
  next hne => exact absurd hs hne

theorem Feeder.sound_fail {f : Feeder} (h : f.sound) : f.fail.sound :=
  ⟨h.1, by have := h.2.1; simp only [Feeder.fail, raiseTo]; split <;> omega, h.2.2⟩

theorem Feeder.sound_failVerdict {f : Feeder} (h : f.sound) : f.failVerdict.sound :=
  ⟨by have := h.1; simp only [Feeder.failVerdict, raiseTo]; split <;> omega, (Feeder.sound_fail h).2⟩

namespace Steady
variable {P : State → Prop} (h : Steady P) {s : State}
include h

theorem setFeeder (i : Fin 8) (x : Feeder) (hx : (s.wft.feeders.get i).sound → x.sound) (hs : P s) :
    P { s with wft := s.wft.setFeeder i x } :=
  h.wft _ hs (weftSound_setFeeder hx)

theorem changeFeeder (i : Fin 8) (g : Feeder → Feeder) (hg : ∀ f : Feeder, f.sound → (g f).sound) (hs : P s) :
    P (changeFeeder i g s) := by
  have h1 := h.setFeeder i (g (s.wft.feeders.get i)) (hg _) hs
  unfold Machine.changeFeeder
  dsimp only
  split
  · exact h1
  · split
    · exact h.replanFrom _ (h.raise _ _ h1)
    · split
      · exact h.fillPlans (h.raise _ _ h1)
      · exact h.raise _ _ h1

theorem accountCommit (f : Option (Fin 8)) (hs : P s) : P (accountCommit f s) := by
  cases f with
  | none => exact hs
  | some i => exact h.setFeeder i _ (fun hx => ⟨Nat.zero_le _, hx.2⟩) hs

theorem accountFailure (f : Option (Fin 8)) (hs : P s) : P (accountFailure f s) := by
  cases f with
  | none => exact hs
  | some i =>
    unfold Machine.accountFailure
    dsimp only
    split
    · exact h.replanFrom i (h.raise _ _ (h.raise _ _
        (h.setFeeder i _ (fun hx => ⟨(Feeder.sound_failVerdict hx).1, (Feeder.sound_failVerdict hx).2.1, fun _ => rfl⟩) hs)))
    · exact h.setFeeder i _ Feeder.sound_failVerdict hs

/-! ### Jobs and transfers -/

theorem startJob (k : JobKind) (hx : s.xpe.staging = .empty) (ht : s.hcc.isTaking = false) (hs : P s) :
    P (startJob k s) := by
  unfold Machine.startJob; split
  · exact hs
  next c hc => exact h.triggerWhen _ _ (h.stage _ _ (h.chosen false none (s.cardOf c).weft hs) hc hx ht)

theorem completeJob (j : Job) (hs : P s) : P (completeJob j s) := by
  unfold Machine.completeJob; split
  next p hp => exact h.xpe _ hs (by rw [hp]; rfl)
  · exact h.xpe _ hs rfl
  · exact h.xpe _ hs rfl

end Steady

theorem budgetSound_compareEcho {s : State} (bad : List Nat) {x : Hcc} (hb : x.budget = s.hcc.budgetAfter bad)
    (ht : x.threshold = s.hcc.threshold) (h : s.budgetSound) : { s with hcc := x }.budgetSound := by
  obtain ⟨h1, h2, h3⟩ := h
  simp only [State.budgetSound, hb, ht, budgetAfter_eq]
  refine ⟨?_, ?_, h3⟩
  · split
    · exact h1
    · split <;> omega
  · split
    · exact h2
    · split <;> omega

theorem plan_flagMismatch (n : Half) (st : Staging) :
    (st.flagMismatch n).plan.map (·.cursor) = st.plan.map (·.cursor) := by
  have hp : ∀ p : Plan, (if p.serial = n then { p with echoMismatch := true } else p).cursor = p.cursor := by
    intro p; split <;> rfl
  cases st <;> simp [Staging.flagMismatch, Staging.modPlan, Staging.plan, hp]

theorem compareEcho_transfer (n : Half) (echo : List ModuleEcho) (s : State) :
    (compareEcho n echo s).hcc.transfer = s.hcc.transfer := by
  unfold compareEcho; dsimp only; split <;> rfl

theorem updateStatuses_isTaking (st : List EchoStatus) (s : State) :
    (updateStatuses st s).hcc.isTaking = s.hcc.isTaking := by
  have ht : (updateStatuses st s).hcc.transfer = s.hcc.transfer := by unfold updateStatuses; rfl
  simp only [Hcc.isTaking, ht]

theorem triggerWhen_isTaking (c : Bool) (t : Trigger) (s : State) :
    (triggerWhen c t s).hcc.isTaking = s.hcc.isTaking := by
  unfold triggerWhen; split
  · exact trigger_isTaking t s
  · rfl

/-- The completion of a transfer leaves no TAKE. -/
theorem transferResults_isTaking (n : Half) (echo : List ModuleEcho) (s : State) :
    (transferResults n echo s).hcc.isTaking = false := by
  simp only [transferResults, triggerWhen_isTaking, reportLevel]
  rfl

theorem endRefresh_isTaking (s : State) : (endRefresh s).hcc.isTaking = s.hcc.isTaking := by
  unfold endRefresh; split
  next hr => simp [Hcc.isTaking, hr]
  · rfl

namespace Steady
variable {P : State → Prop} (h : Steady P) {s : State}
include h

theorem compareEcho (n : Half) (echo : List ModuleEcho) (hs : P s) : P (compareEcho n echo s) := by
  have h1 : P { s with hcc := { s.hcc with
      lastCompare := some ⟨n, s.hcc.compares, s.mismatched echo⟩
      echoErrors := raiseErrors (s.mismatched echo) s.hcc.echoErrors
      budget := s.hcc.budgetAfter (s.mismatched echo) } } :=
    h.hcc _ hs (budgetSound_compareEcho _ rfl rfl) rfl rfl fun _ => id
  unfold Machine.compareEcho
  dsimp only
  split
  · exact h.xpe _ h1 rfl
  · exact h.raise _ _ (h.xpe _ h1 (plan_flagMismatch ..))

theorem updateStatuses (st : List EchoStatus) (hs : P s) : P (updateStatuses st s) := by
  unfold Machine.updateStatuses
  generalize s.hcc.recordStatuses st = v
  exact h.bus hs rfl rfl rfl rfl rfl

theorem reportLevel (hs : P s) : P (reportLevel s) := h.grd _ hs (guardSound_levels rfl rfl rfl) rfl

theorem transferResults (n : Half) (echo : List ModuleEcho) (ht : s.hcc.isTaking = false) (hs : P s) :
    P (transferResults n echo s) := by
  have h1 := h.updateStatuses (echo.map (·.status)) (h.compareEcho n echo hs)
  have h2 : (Machine.updateStatuses (echo.map (·.status)) (Machine.compareEcho n echo s)).hcc.isTaking = false := by
    rw [updateStatuses_isTaking, ← ht]
    simp only [Hcc.isTaking, compareEcho_transfer]
  unfold Machine.transferResults
  dsimp only
  generalize Machine.updateStatuses _ (Machine.compareEcho n echo s) = t at h1 h2 ⊢
  exact h.triggerWhen _ _ (h.reportLevel (h.triggerWhen _ _ (h.transferTo h1 rfl rfl rfl rfl fun hx => by
    rw [h2] at hx; cases hx)))

theorem orderTake (n : Half) (hs : P s) : P (orderTake n s) := h.transferTo hs rfl rfl rfl rfl fun _ => rfl

theorem setPresent (p : Option PresentJob) (hs : P s) : P { s with seq := { s.seq with present := p } } :=
  h.seq _ hs rfl rfl rfl rfl

theorem reportTransfer (n : Half) (hs : P s) : P (reportTransfer n s) := by
  unfold Machine.reportTransfer; split
  · split
    · split
      · exact h.orderTake n (h.setPresent _ hs)
      · exact hs
    · exact hs
  · exact hs

theorem startTransfer (hs : P s) : P (startTransfer s) := by
  unfold Machine.startTransfer
  split
  · exact hs
  next p i hx hnt =>
    have hnt : s.hcc.isTaking = false := by
      cases hc : s.hcc.transfer <;> simp [Hcc.isTaking, hc]
      exact hnt _ hc
    have h1 : P { Machine.endRefresh s with hcc := { (Machine.endRefresh s).hcc with transfer := .shifting p.serial } } :=
      h.transferTo (h.endRefresh hs) rfl rfl rfl rfl fun hx => by rw [endRefresh_isTaking, hnt] at hx; cases hx
    dsimp only
    split
    · exact h.reportTransfer _ (h.transferResults _ _ rfl h1)
    · exact h1
  · exact hs
  · exact hs

/-! ### The PRESENT job -/

theorem endPresent (hs : P s) : P (endPresent s) := by
  unfold Machine.endPresent; split
  · exact hs
  · exact h.discardStaging (h.setPresent none hs)

theorem beginPresent (g : Stage) (hs : P s) : P (beginPresent g s) := h.setPresent _ hs

theorem presentCursor (ht : s.hcc.isTaking = false) (hs : P s) : P (presentCursor s) := by
  unfold Machine.presentCursor
  split
  · exact h.startTransfer (h.beginPresent _ hs)
  · exact h.beginPresent _ (h.xpe _ hs rfl)
  · refine h.startJob _ ?_ ?_ (h.beginPresent _ (h.discardStaging hs))
    · show (Machine.discardStaging s).xpe.staging = .empty
      rw [discardStaging_xpe ht]
    · exact (discardStaging_isTaking s).trans ht

end Steady

theorem endPresent_isTaking (s : State) : (endPresent s).hcc.isTaking = s.hcc.isTaking := by
  unfold endPresent; split
  · rfl
  · exact discardStaging_isTaking _

/-- Outside a TAKE an order is taken at once (R71). -/
theorem orderPresent_not_taking {s : State} (ht : s.hcc.isTaking = false) :
    orderPresent s = presentCursor (endPresent s) := by
  unfold orderPresent
  cases h : s.hcc.transfer <;> simp [Hcc.isTaking, h] at ht <;> rfl

/-- What R132 makes of STOPPING once the window is closed. -/
def leaveStopping (s : State) : State :=
  if s.seq.state = .stopping then
    if s.latchedBelongs = true ∧ s.xpe = ⟨none, .empty⟩ then enterReady s else enterPresenting s
  else s

theorem restStopping_eq (s : State) :
    restStopping s = match s.wft.window with | some n => leaveStopping (verdictAtRest n s) | none => leaveStopping s := by
  unfold restStopping
  cases s.wft.window <;> rfl

namespace Steady
variable {P : State → Prop} (h : Steady P) {s : State}
include h

theorem orderPresent (hs : P s) : P (orderPresent s) := by
  cases ht : s.hcc.isTaking with
  | true => rw [orderPresent_taking ht]; exact h.seq _ hs rfl rfl rfl rfl
  | false =>
    rw [orderPresent_not_taking ht]
    exact h.presentCursor ((endPresent_isTaking s).trans ht) (h.endPresent hs)

/-! ### READY, PRESENTING and the way out of guard -/

theorem withhold (b : Bool) (hs : P s) : P { s with wft := { s.wft with withheld := b } } :=
  h.wft _ hs (weftSound_groups rfl rfl rfl rfl)

theorem enterReady (hg : s.seq.state.guarded) (hw : s.seq.state = .running → s.ang.stallWatch = .off) (hs : P s) :
    P (enterReady s) :=
  h.raise _ _ (h.raise _ _ (h.withhold false (h.move .ready hs hg (.inr (.inl rfl)) hw)))

theorem enterPresenting (hg : s.seq.state.guarded) (hw : s.seq.state = .running → s.ang.stallWatch = .off) (hs : P s) :
    P (enterPresenting s) :=
  h.orderPresent (h.move .presenting hs hg (.inl rfl) hw)

theorem guardExit (hg : s.seq.state = .guard ∨ s.seq.state = .halted) (hs : P s) : P (guardExit s) := by
  have hleft : ∀ x : SeqState, x = .ready ∨ x = .presenting → P { s with
      grd := { s.grd with causes := [], stopRequest := false }, seq := { s.seq with coasting := false, state := x } } := by
    intro x hx
    have h1 := h.leaveGuard x hs hg hx
    exact h.seq _ (h.grd { s.grd with causes := [], stopRequest := false } h1 (guardSound_levels rfl rfl rfl) rfl)
      rfl rfl rfl rfl
  unfold Machine.guardExit
  dsimp only
  split
  · exact h.raise .w .planChanged (h.raise .d .readyChanged (h.withhold false
      (h.raise .d .guardLeft (h.raise .p .guardLeft (hleft .ready (.inl rfl))))))
  · exact h.orderPresent (h.raise .d .guardLeft (h.raise .p .guardLeft (hleft .presenting (.inr rfl))))

theorem represent (hr : s.seq.state = .ready) (hs : P s) : P (represent s) :=
  h.departed _ (h.enterPresenting (.inr (.inl hr)) (fun hx => by rw [hr] at hx; cases hx) hs)

theorem presentOwed (hs : P s) : P (presentOwed s) := by
  unfold Machine.presentOwed; split
  next hr => exact h.represent hr.1 hs
  · exact hs

theorem exitCheck (hs : P s) : P (exitCheck s) := by
  unfold Machine.exitCheck; split
  next hg => exact h.presentOwed (h.guardExit (.inl hg.1) hs)
  · exact hs

/-! ### Commit and verdicts -/

theorem commitNotices (hits : List (Fin 4)) (b : Bool) (hs : P s) : P (commitNotices hits b s) := by
  unfold Machine.commitNotices
  dsimp only
  refine h.triggerWhen _ _ ?_
  split <;> split
  · exact h.raise _ _ (h.raise _ _ hs)
  · exact h.raise _ _ hs
  · exact h.raise _ _ hs
  · exact hs

theorem grdCommit (hs : P s) : P { s with grd := s.grd.commit } := by
  refine h.grd _ hs (fun hg => ?_) ?_
  · obtain ⟨h1, h2, h3, h4⟩ := hg
    unfold Grd.commit
    split
    · exact ⟨h1, h2, h3, h4⟩
    · dsimp only
      split
      · exact ⟨h1, h2, Nat.zero_le _, fun _ => Nat.zero_le _⟩
      · exact ⟨h1, h2, h3, h4⟩
  · unfold Grd.commit; split
    · rfl
    · dsimp only; split <;> rfl

theorem commitPlan (p : Plan) (hp : s.pendingPlan = some p) (hs : P s) : P (commitPlan p s) :=
  h.commitNotices _ _ (h.grdCommit (h.commit p hs hp))

theorem commitPick (hs : P s) : P (Machine.commit s) := by
  unfold Machine.commit; split
  next p hp => exact h.commitPlan p hp hs
  · exact hs

theorem closeWindow (n : Half) (v : Verdict) (hs : P s) : P (closeWindow n v s) :=
  h.wft _ hs (weftSound_groups rfl rfl rfl rfl)

theorem failVerdict (n : Half) (v : Verdict) (t : Trigger) (hs : P s) : P (failVerdict n v t s) :=
  h.accountFailure _ (h.trigger _ (h.closeWindow n v hs))

theorem commitVerdict (n : Half) (hs : P s) : P (commitVerdict n s) :=
  h.commitPick (h.accountCommit _ (h.closeWindow n .commit hs))

theorem verdictAtClose (n : Half) (hs : P s) : P (verdictAtClose n s) := by
  unfold Machine.verdictAtClose; split
  · exact h.failVerdict _ _ _ hs
  · split
    · exact h.failVerdict _ _ _ hs
    · exact h.commitVerdict n hs

theorem verdictAtRest (n : Half) (hs : P s) : P (verdictAtRest n s) := by
  unfold Machine.verdictAtRest; split
  · exact h.failVerdict _ _ _ hs
  · split
    · exact h.raise _ _ (h.raise _ _ (h.closeWindow _ _ hs))
    · exact h.commitVerdict n hs

/-! ### Finding and rest -/

theorem findStep (hs : P s) : P (findStep s) := by
  unfold Machine.findStep
  split
  · exact h.seq _ hs rfl rfl rfl rfl
  · dsimp only
    split
    · exact h.trigger _ (h.endPresent hs)
    next e he => exact h.orderPresent (h.unwind e (h.endPresent hs) he)

theorem findExitCheck (hs : P s) : P (findExitCheck s) := by
  unfold Machine.findExitCheck; split
  next hc =>
    have hf : s.seq.state = .finding := hc.1
    exact h.enterReady (.inr (.inr (.inr (.inr hf)))) (fun hx => by rw [hf] at hx; cases hx) hs
  · exact hs

theorem leaveStopping (hs : P s) : P (leaveStopping s) := by
  unfold Machine.leaveStopping
  split
  next hst =>
    have hw : s.seq.state = .running → s.ang.stallWatch = .off := fun hr => by rw [hst] at hr; cases hr
    split
    · exact h.enterReady (.inr (.inr (.inr (.inl hst)))) hw hs
    · exact h.enterPresenting (.inr (.inr (.inr (.inl hst)))) hw hs
  · exact hs

theorem restStopping (hs : P s) : P (restStopping s) := by
  rw [restStopping_eq]
  split
  · exact h.leaveStopping (h.verdictAtRest _ hs)
  · exact h.leaveStopping hs

theorem restHandling (b : Bool) (hs : P s) : P (restHandling b s) := by
  have h1 : P { s with seq := { s.seq with runDown := false } } := h.seq _ hs rfl rfl rfl rfl
  have h2 : P { s with seq := { s.seq with runDown := false, coasting := false } } := h.seq _ hs rfl rfl rfl rfl
  unfold Machine.restHandling
  dsimp only
  split
  · exact h.restStopping h1
  · exact h.findExitCheck h1
  · split
    · exact h.exitCheck h2
    · exact h1
  · split
    · exact h2
    · exact h1
  all_goals exact h1

/-! ### The end of a TAKE -/

theorem latchStaged (hr : s.hcc.holdsReleased = false) (hs : P s) : P (latchStaged s) := by
  have hidle : P { s with hcc := { s.hcc with transfer := .idle } } :=
    h.hcc _ hs (budgetSound_bus rfl rfl) rfl rfl fun hx => by rw [show _ = false from hr] at hx; cases hx
  unfold Machine.latchStaged
  dsimp only
  split
  next p i hp =>
    have h1 := h.seq { s.seq with representOwed := s.seq.representOwed.taken } hs rfl rfl rfl rfl
    exact h.latch p i h1 hp hr
  · exact hidle
  · exact hidle

theorem takeHeldDrop (hs : P s) : P (takeHeldDrop s) := by
  unfold Machine.takeHeldDrop; split
  · exact h.dropAll (h.bus hs rfl rfl rfl rfl rfl)
  · exact hs

theorem finishPresent (hs : P s) : P (finishPresent s) := by
  unfold Machine.finishPresent; split
  · split
    · have h1 := h.raise .p .presentDone (h.setPresent none hs)
      dsimp only
      split
      next hp => exact h.enterReady (.inl hp) (fun hx => by rw [hp] at hx; cases hx) h1
      · exact h.findExitCheck h1
    · exact hs
  · exact hs

theorem takeFindSteps (n : Nat) : ∀ {s : State}, P s → P (takeFindSteps n s) := by
  induction n with
  | zero => exact fun hs => hs
  | succ n ih =>
    intro s hs
    unfold Machine.takeFindSteps; split
    · exact ih (h.findStep (h.seq _ hs rfl rfl rfl rfl))
    · exact hs

theorem takePresentOrder (hs : P s) : P (takePresentOrder s) := by
  unfold Machine.takePresentOrder; split
  · exact h.orderPresent (h.seq _ hs rfl rfl rfl rfl)
  · exact hs

theorem takeEnds (hs : P s) : P (takeEnds s) := by
  have h1 : P (if s.hcc.holdsReleased then Machine.closeReleased s else Machine.takeHeldDrop (Machine.latchStaged s)) := by
    split
    next hr => exact h.closeReleased hs hr
    next hr => exact h.takeHeldDrop (h.latchStaged (Bool.eq_false_iff.2 hr) hs)
  exact h.takePresentOrder (h.takeFindSteps _ (h.finishPresent h1))

end Steady

end Sys2Proof.Machine
end

section
/-! PROOFS. What the elementary updates keep, the shaft, the timers and the requests of the weaving side keep. -/

namespace Sys2Proof.Machine

/-! ### The order of the actions of an encoder step -/

/-- The count moves once, after the actions of `pre`; what follows does not move it. -/
def placesAfter (pre : List ShaftAction) (n : Int) (i : IndexState) (l : List SchedAngle) (r : List ShaftAction) : Prop :=
  ∃ post, r = pre ++ .place n i l :: post ∧ ∀ x ∈ post, x.isPlace = false

/-- An action whose place is free comes after the count has moved. -/
theorem placesAfter_placeFreely {pre : List ShaftAction} {n : Int} {i : IndexState} {l : List SchedAngle}
    {r : List ShaftAction × Nat} (hpre : ∀ x ∈ pre, x.isPlace = false) (x : ShaftAction) (hx : x.isPlace = false) (b : Bool)
    (h : placesAfter pre n i l r.1) : placesAfter pre n i l (placeFreely x b r).1 := by
  obtain ⟨post, hr, hpost⟩ := h
  unfold placeFreely
  split
  next =>
    have hidx : r.1.findIdx ShaftAction.isPlace = pre.length := by
      rw [hr, List.findIdx_append]
      have : pre.findIdx ShaftAction.isPlace = pre.length :=
        List.findIdx_eq_length.2 fun y hy => by simp [hpre y hy]
      simp [this, List.findIdx_cons, ShaftAction.isPlace]
    dsimp only
    rw [hidx]
    generalize Config.eventPlace r.2 % (r.1.length - (pre.length + 1) + 1) = k
    refine ⟨post.take k ++ x :: post.drop k, ?_, fun y hy => ?_⟩
    · rw [hr]
      have h1 : pre.length + 1 + k = (pre ++ [ShaftAction.place n i l]).length + k := by simp
      rw [show pre ++ ShaftAction.place n i l :: post = (pre ++ [ShaftAction.place n i l]) ++ post by simp, h1,
        List.take_length_add_append, List.drop_length_add_append]
      simp
    · rcases List.mem_append.1 hy with hy | hy
      · exact hpost y (List.mem_of_mem_take hy)
      · rcases List.mem_cons.1 hy with rfl | hy
        · exact hx
        · exact hpost y (List.mem_of_mem_drop hy)
  · exact ⟨post, hr, hpost⟩

theorem isPlace_fires (l : List SchedAngle) : ∀ x ∈ l.map ShaftAction.fire, x.isPlace = false := by
  intro x hx
  obtain ⟨a, _, rfl⟩ := List.mem_map.1 hx
  rfl

/-- R1 to R5: the count moves once. A crossing may fault or fire first and then places 0 or 719; any other step places
first, one count on, or within the circle. -/
theorem ordered_placesAfter (a : Ang) (d : Dir) (encz : Bool) : ∃ pre n i l,
    placesAfter pre n i l (a.ordered d encz) ∧ (∀ x ∈ pre, x.isPlace = false) ∧
    ((pre = [] ∧ (n = a.count + 1 ∧ n ≤ 721 ∨ n = a.count - 1 ∧ -2 ≤ n)) ∨ 0 ≤ n ∧ n ≤ 719) := by
  have hmod : ∀ m : Int, 0 ≤ m % 720 ∧ m % 720 ≤ 719 := fun m => by omega
  unfold Ang.ordered
  split
  next =>
    refine ⟨_, 0, .indexed, SchedAngle.all, ⟨[.crossing .forward], rfl, by simp [ShaftAction.isPlace]⟩, ?_, .inr (by decide)⟩
    split
    · simp [ShaftAction.isPlace]
    · split
      · exact isPlace_fires _
      · simp
  next =>
    unfold Ang.forwardStep
    dsimp only
    split
    · exact ⟨[], _, _, _, ⟨[], rfl, by simp⟩, by simp, .inr (hmod _)⟩
    · split
      · exact ⟨[], _, _, _, ⟨[.angleFault], rfl, by simp [ShaftAction.isPlace]⟩, by simp, .inr (hmod _)⟩
      next hle => exact ⟨[], _, _, _, ⟨_, rfl, isPlace_fires _⟩, by simp, .inl ⟨rfl, .inl ⟨rfl, by omega⟩⟩⟩
  next =>
    refine ⟨_, 719, .indexed, a.armed, ⟨[.crossing .reverse], rfl, by simp [ShaftAction.isPlace]⟩, ?_, .inr (by decide)⟩
    split <;> simp [ShaftAction.isPlace]
  next =>
    unfold Ang.reverseStep
    dsimp only
    split
    · exact ⟨[], _, _, _, ⟨[], rfl, by simp⟩, by simp, .inr (hmod _)⟩
    · split
      · exact ⟨[], _, _, _, ⟨[.angleFault], rfl, by simp [ShaftAction.isPlace]⟩, by simp, .inr (hmod _)⟩
      next hle => exact ⟨[], _, _, _, ⟨[], rfl, by simp⟩, by simp, .inl ⟨rfl, .inr ⟨rfl, by omega⟩⟩⟩

theorem actions_placesAfter (a : Ang) (d : Dir) (encz : Bool) (k : Nat) : ∃ pre n i l,
    placesAfter pre n i l (a.actions d encz k).1 ∧ (∀ x ∈ pre, x.isPlace = false) ∧
    ((pre = [] ∧ (n = a.count + 1 ∧ n ≤ 721 ∨ n = a.count - 1 ∧ -2 ≤ n)) ∨ 0 ≤ n ∧ n ≤ 719) := by
  obtain ⟨pre, n, i, l, hl, hpre, hn⟩ := ordered_placesAfter a d encz
  exact ⟨pre, n, i, l, placesAfter_placeFreely hpre _ rfl _ (placesAfter_placeFreely hpre _ rfl _ hl), hpre, hn⟩

/-! ### The tracker -/

theorem travelAfter_le (d : Dir) {r : Nat} (h : r ≤ 3) : travelAfter d r ≤ 3 := by
  cases d <;> simp only [travelAfter, raiseTo]
  · omega
  · split <;> omega

theorem stallStep_timer (a : Ang) (h : a.stallTimer ≠ none ↔ a.stallWatch = .armed) :
    a.stallStep.stallTimer ≠ none ↔ a.stallStep.stallWatch = .armed := by
  unfold Ang.stallStep
  split
  · exact h
  next hw => simp [hw]
  · simp

theorem stallStep_off (a : Ang) (h : a.stallWatch = .off) : a.stallStep = a := by
  unfold Ang.stallStep; rw [h]

theorem stallStep_sched (a : Ang) : a.stallStep.sched = a.sched ∧ a.stallStep.count = a.count ∧
    a.stallStep.restAngle = a.restAngle ∧ a.stallStep.index = a.index ∧ a.stallStep.armed = a.armed := by
  unfold Ang.stallStep; split <;> exact ⟨rfl, rfl, rfl, rfl, rfl⟩

theorem trackerSound_moved {s : State} (d : Dir) (encz : Bool) (n : Int) (h : s.trackerSound) :
    { s with ang := s.ang.moved d encz n }.trackerSound := by
  obtain ⟨h1, h2, h3, h4, h5, h6, h7, h8⟩ := h
  obtain ⟨e1, e2, e3, -, -⟩ := stallStep_sched s.ang
  refine ⟨?_, ?_, ?_, travelAfter_le d h4, ?_, ?_, stallStep_timer s.ang h7, fun hne => ?_⟩
  · show s.ang.stallStep.sched.legal
    rw [e1]; exact h1
  · show -2 ≤ s.ang.stallStep.count
    rw [e2]; exact h2
  · show s.ang.stallStep.count ≤ 721
    rw [e2]; exact h3
  · show s.ang.stallStep.restAngle < 720
    rw [e3]; exact h5
  · simp only [Ang.moved]
    split
    · simp
    next hr =>
      simp only [Bool.or_eq_true, decide_eq_true_eq, not_or] at hr
      have : s.ang.rest = .atRest := by
        cases hc : s.ang.rest
        · exact absurd hc hr.1
        · rfl
      simp [h6, this]
  · show s.ang.stallStep.stallWatch = .off
    rw [stallStep_off _ (h8 hne)]; exact h8 hne

/-- A change of the tracker's armed set, index state, index level or fault total. -/
theorem trackerSound_of_same {s : State} {a : Ang} (h1 : a.sched = s.ang.sched) (h2 : a.count = s.ang.count)
    (h3 : a.reverseTravel = s.ang.reverseTravel) (h4 : a.restAngle = s.ang.restAngle)
    (h5 : a.settleTimer = s.ang.settleTimer) (h6 : a.rest = s.ang.rest) (h7 : a.stallTimer = s.ang.stallTimer)
    (h8 : a.stallWatch = s.ang.stallWatch) (h : s.trackerSound) : { s with ang := a }.trackerSound := by
  simpa only [State.trackerSound, h1, h2, h3, h4, h5, h6, h7, h8] using h

theorem trackerSound_place {s : State} {n : Int} (i : IndexState) (l : List SchedAngle)
    (hn : s.trackerSound → -2 ≤ n ∧ n ≤ 721) (h : s.trackerSound) :
    { s with ang := { s.ang with count := n, index := i, armed := l } }.trackerSound := by
  obtain ⟨h1, -, -, h4, h5, h6, h7, h8⟩ := id h
  exact ⟨h1, (hn h).1, (hn h).2, h4, h5, h6, h7, h8⟩

theorem trackerSound_stallOff {s : State} (h : s.trackerSound) : (stallOff s).trackerSound := by
  obtain ⟨h1, h2, h3, h4, h5, h6, -, -⟩ := h
  exact ⟨h1, h2, h3, h4, h5, h6, by simp [stallOff], fun _ => rfl⟩

theorem angle_lt (a : Ang) : a.angle < 720 := by
  unfold Ang.angle; omega

/-- GRD's levels and limit as `guardSound` speaks of them, after a SET-GUARD in its ranges. -/
theorem guardSound_set {s : State} {c : GuardSetting} (hc : guardOk c = true) (h : s.guardSound) :
    { s with grd := s.grd.set c }.guardSound := by
  obtain ⟨-, -, h3, h4⟩ := h
  simp only [guardOk, Bool.and_eq_true, decide_eq_true_eq, List.all_eq_true, Bool.or_eq_true] at hc
  obtain ⟨⟨⟨hl, -⟩, -⟩, he⟩ := hc
  refine ⟨fun t ht => ?_, hl, ?_, fun h0 => ?_⟩
  · rcases he t (by cases t <;> decide) with hx | hx
    · exact hx
    · rw [ht] at hx; cases hx
  · show (if 0 < c.limit ∧ c.limit < s.grd.count then c.limit else s.grd.count) ≤ 15
    split <;> omega
  · have h0 : c.limit ≠ 0 := h0
    show (if 0 < c.limit ∧ c.limit < s.grd.count then c.limit else s.grd.count) ≤ c.limit
    split <;> omega

theorem guardSound_countZero {s : State} (r : Nat) (h : s.guardSound) :
    { s with grd := { s.grd with count := 0, run := r } }.guardSound :=
  ⟨h.1, h.2.1, Nat.zero_le _, fun _ => Nat.zero_le _⟩

theorem weftSound_clear {s : State} (f t : BitVec 8) (e y : Bool) (h : s.weftSound) :
    { s with wft := s.wft.clear f t e y }.weftSound := by
  obtain ⟨h1, h2, h3, h4, h5⟩ := h
  refine ⟨h1, h2, ?_, ?_, fun i => ?_⟩
  · show (if e then 0 else s.wft.extra) ≤ 65535
    split <;> omega
  · show (if y then 0 else s.wft.stray) ≤ 65535
    split <;> omega
  · have hg : (s.wft.clear f t e y).feeders.get i =
        (s.wft.feeders.get i).clear (f.getLsbD i.1) (t.getLsbD i.1) := by
      simp only [Wft.clear, get_ofFn]
    obtain ⟨g1, g2, g3⟩ := h5 i
    show Feeder.sound ((s.wft.clear f t e y).feeders.get i)
    rw [hg]
    refine ⟨g1, ?_, g3⟩
    show (if _ then 0 else (s.wft.feeders.get i).total) ≤ 65535
    split <;> omega

theorem program_markSuspect (q : Seq) (n : Half) :
    Seq.program { q with history := markSuspect n q.history } = q.program := by
  simp only [Seq.program, markSuspect, List.map_map]
  refine List.map_congr_left fun e _ => ?_
  simp only [Function.comp]
  split <;> rfl

namespace Steady
variable {P : State → Prop} (h : Steady P) {s : State}
include h

/-! ### Schedule events -/

theorem atLatch (hs : P s) : P (atLatch s) := by
  unfold Machine.atLatch
  split
  · split
    · split
      · exact h.orderTake _ hs
      · exact h.trigger _ hs
    · exact h.trigger _ hs
  · exact hs

theorem setWindow (w : Option Half) (hs : P s) : P { s with wft := { s.wft with window := w } } :=
  h.wft _ hs (weftSound_groups rfl rfl rfl rfl)

theorem atOpen (hs : P s) : P (atOpen s) := by
  unfold Machine.atOpen
  split
  · split
    · exact h.trigger _ (h.setWindow none hs)
    · split
      · exact h.wft _ hs (weftSound_groups rfl rfl rfl rfl)
      · exact h.setWindow none hs
  · exact h.setWindow none hs

theorem atClose (hs : P s) : P (atClose s) := by
  unfold Machine.atClose
  split
  · split
    · exact h.verdictAtClose _ hs
    · exact hs
  · exact hs

theorem atPrep (hs : P s) : P (atPrep s) := by
  unfold Machine.atPrep
  split
  next hc =>
    have ht := hc.2.2.2
    refine h.startJob _ ?_ ((discardStaging_isTaking s).trans ht) (h.discardStaging hs)
    rw [discardStaging_xpe ht]
  · exact hs

theorem atXfer (hs : P s) : P (atXfer s) := by
  unfold Machine.atXfer
  split
  · split
    · exact h.startTransfer hs
    · exact h.trigger _ hs
  · exact hs

theorem scheduleEvent (a : SchedAngle) (hs : P s) : P (scheduleEvent a s) := by
  cases a with
  | latch => exact h.atLatch hs
  | opening => exact h.atOpen hs
  | closing => exact h.atClose hs
  | prep => exact h.atPrep hs
  | xfer => exact h.atXfer hs

/-! ### The encoder step -/

theorem raiseAngleFault (hs : P s) : P (raiseAngleFault s) :=
  h.trigger _ (h.ang _ hs (trackerSound_of_same rfl rfl rfl rfl rfl rfl rfl rfl))

theorem indexCrossing (d : Dir) (hs : P s) : P (indexCrossing d s) := by
  unfold Machine.indexCrossing
  split <;> split
  · exact h.unsanctioned hs
  · exact hs
  · exact h.findStep hs
  · exact hs

theorem judgeMotion (hs : P s) : P (judgeMotion s) := by
  unfold Machine.judgeMotion
  split
  · exact h.unsanctioned hs
  · exact hs

theorem judgeReverse (hs : P s) : P (judgeReverse s) := by
  unfold Machine.judgeReverse
  split
  · exact h.unsanctioned hs
  · exact hs

theorem place {n : Int} (i : IndexState) (l : List SchedAngle) (hn : s.trackerSound → -2 ≤ n ∧ n ≤ 721) (hs : P s) :
    P ((ShaftAction.place n i l).take s) :=
  h.ang _ hs (trackerSound_place i l hn)

theorem takeAction {x : ShaftAction} (hx : x.isPlace = false) (hs : P s) : P (x.take s) := by
  cases x with
  | angleFault => exact h.raiseAngleFault hs
  | fire a => exact h.scheduleEvent a (h.ang _ hs (trackerSound_of_same rfl rfl rfl rfl rfl rfl rfl rfl))
  | place n i l => cases hx
  | crossing d => exact h.indexCrossing d hs
  | motionStarted => exact h.judgeMotion hs
  | reverseTravel => exact h.judgeReverse hs

theorem takeActions (l : List ShaftAction) (hl : ∀ x ∈ l, x.isPlace = false) :
    ∀ {s : State}, P s → P (l.foldl (fun s x => x.take s) s) := by
  induction l with
  | nil => exact fun hs => hs
  | cons x l ih =>
    intro s hs
    exact ih (fun y hy => hl y (List.mem_cons_of_mem _ hy)) (h.takeAction (hl x List.mem_cons_self) hs)

theorem moved (d : Dir) (encz : Bool) (n : Int) (k : Nat) (hs : P s) :
    P { s with ang := s.ang.moved d encz n, draws := k } :=
  h.draws k (h.ang _ hs (trackerSound_moved d encz n))

/-- The state after the actions of an encoder step. -/
theorem encoderStep (d : Dir) (encz : Bool) (hs : P s) :
    P ((s.ang.actions d encz s.draws).1.foldl (fun s x => x.take s)
      { s with ang := s.ang.moved d encz (countAfter s.ang.count (s.ang.ordered d encz)),
               draws := (s.ang.actions d encz s.draws).2 }) := by
  obtain ⟨pre, n, i, l, ⟨post, hr, hpost⟩, hpre, hn⟩ := actions_placesAfter s.ang d encz s.draws
  have h0 := h.moved d encz (countAfter s.ang.count (s.ang.ordered d encz)) (s.ang.actions d encz s.draws).2 hs
  rw [hr, List.foldl_append, List.foldl_cons]
  refine h.takeActions post hpost (h.place i l (fun ht => ?_) (h.takeActions pre hpre h0))
  rcases hn with ⟨rfl, hn⟩ | hn
  · obtain ⟨-, h2, h3, -⟩ := ht
    have e : (s.ang.moved d encz (countAfter s.ang.count (s.ang.ordered d encz))).count = s.ang.count :=
      (stallStep_sched s.ang).2.1
    have h2 : -2 ≤ s.ang.count := by rw [← e]; exact h2
    have h3 : s.ang.count ≤ 721 := by rw [← e]; exact h3
    omega
  · omega

theorem encoderError (encz : Bool) (hs : P s) :
    P (Machine.raiseAngleFault { s with ang := { s.ang with indexLevel := encz, index := .unindexed } }) :=
  h.raiseAngleFault (h.ang _ hs (trackerSound_of_same rfl rfl rfl rfl rfl rfl rfl rfl))

/-! ### Timers and edges -/

theorem declareRest (hs : P s) : P { s with ang := { s.ang with
    rest := .atRest, restAngle := s.ang.angle, reverseTravel := 0, settleTimer := none } } := by
  refine h.ang _ hs fun ht => ?_
  obtain ⟨h1, h2, h3, -, -, -, h7, h8⟩ := ht
  exact ⟨h1, h2, h3, Nat.zero_le _, angle_lt s.ang, by simp, h7, h8⟩

theorem stallExpires (hr : s.ang.stallTimer ≠ none) (hs : P s) :
    P { s with ang := { s.ang with stallWatch := .expired, stallTimer := none } } := by
  refine h.ang _ hs fun ht => ?_
  obtain ⟨h1, h2, h3, h4, h5, h6, h7, h8⟩ := ht
  exact ⟨h1, h2, h3, h4, h5, h6, by simp, fun hne => by rw [h7.1 hr] at h8; cases h8 hne⟩

theorem filter (t : Option Nat) (r w : Bool) (hs : P s) :
    P { s with grd := { s.grd with filterTimer := t, rawWarp := r, warp := w } } :=
  h.grd _ hs (guardSound_levels rfl rfl rfl) rfl

theorem countEdges {e y : Nat} (c : Option Nat) (he : s.wft.extra ≤ 65535 → e ≤ 65535) (hy : s.wft.stray ≤ 65535 → y ≤ 65535)
    (hs : P s) : P { s with wft := { s.wft with capture := c, extra := e, stray := y } } := by
  refine h.wft _ hs fun hw => ?_
  obtain ⟨h1, h2, h3, h4, h5⟩ := hw
  exact ⟨h1, h2, he h3, hy h4, h5⟩

/-! ### Motion -/

theorem grantForward (hr : s.seq.state = .ready) (hs : P s) : P (grantForward s) := by
  have h1 := h.move .running (h.seq { s.seq with grant := .forward } hs rfl rfl rfl rfl)
    (.inr (.inl hr)) (.inr (.inr (.inl rfl))) (fun hx => by rw [show s.seq.state = _ from hx] at hr; cases hr)
  refine h.raise _ _ (h.ang { s.ang with stallWatch := .armed, stallTimer := some (10 * s.ang.sched.stall) } h1 fun ht => ?_)
  obtain ⟨h1, h2, h3, h4, h5, h6, -, -⟩ := ht
  exact ⟨h1, h2, h3, h4, h5, h6, by simp, fun hne => absurd rfl hne⟩

theorem grantFind (hr : s.seq.state = .ready) (hs : P s) : P (grantFind s) :=
  h.raise _ _ (h.move .finding (h.seq { s.seq with grant := .find } hs rfl rfl rfl rfl)
    (.inr (.inl hr)) (.inr (.inr (.inr (.inr rfl)))) (fun hx => by rw [show s.seq.state = _ from hx] at hr; cases hr))

theorem grantPosition (hs : P s) : P (grantPosition s) := h.seq _ hs rfl rfl rfl rfl

theorem dropGrant (hs : P s) : P (dropGrant s) := by
  unfold Machine.dropGrant
  dsimp only
  split
  next hr =>
    have h1 := h.ang { s.ang with stallWatch := .off, stallTimer := none } hs trackerSound_stallOff
    exact h.move .stopping (h.seq { s.seq with grant := .none } h1 rfl rfl rfl rfl)
      (.inr (.inr (.inl hr))) (.inr (.inr (.inr (.inl rfl)))) fun _ => rfl
  · exact h.seq _ hs rfl rfl rfl rfl

theorem stopMotion (hs : P s) : P (stopMotion s) := by
  unfold Machine.stopMotion
  dsimp only
  split
  · exact h.seq _ (h.dropGrant hs) rfl rfl rfl rfl
  · exact h.restHandling _ (h.dropGrant hs)

end Steady

end Sys2Proof.Machine
end

section
/-! PROOFS. What the elementary updates keep, every command keeps. -/

namespace Sys2Proof.Machine

/-! ### The elementary updates of the settings -/

/-- The contents of a slot in canonical form (log 10). -/
def Slot.canonical (x : Slot) : Prop := ∀ d, x.design = some d → d.canonical

/-- An update of a slot that leaves its blocks and its references, keeps the canonical form and a held slot VALID. -/
structure Slot.Tended (x y : Slot) : Prop where
  blocks : y.blocks = x.blocks
  refs : y.refs = x.refs
  canonical : x.canonical → y.canonical
  valid : x.held = true → x.state = .valid → y.state = .valid
  empty : y.state = .empty → x.state = .empty

/-- A property that every elementary update of an owner keeps, of the weaving side and of the settings. -/
structure Governed (P : State → Prop) : Prop extends Steady P where
  /-- R22. -/
  define : ∀ {s : State} (i : Fin 8) (w n : Nat) (map : Vector Nat 16), P s → (s.slot i).state = .empty →
    blocksNeeded w n ≤ s.fst.free → P { s with fst := s.fst.define i w n map }
  /-- R29. -/
  erase : ∀ {s : State} (i : Fin 8), P s → (s.slot i).state = .loading ∨ (s.slot i).held = false →
    P { s with fst := s.fst.erase i }
  slot : ∀ {s : State} (i : Fin 8) (f : Slot → Slot), P s → (s.slot i).Tended (f (s.slot i)) →
    P { s with fst := s.fst.modSlot i f }
  wlb : ∀ {s : State} (v : Vector Weave 32), P s → (s.harnessSound → { s with wlb := v }.harnessSound) →
    P { s with wlb := v } := by intros; assumption
  hmp : ∀ {s : State} (m : Hmp), P s → (s.harnessSound → { s with hmp := m }.harnessSound) → P { s with hmp := m } := by
    intros; assumption
  /-- R125: the cursor of a SELECT-DESIGN, with the PRESENTING that follows in the same step. -/
  select : ∀ {s : State} (c : Cursor), P s → s.openToSettings → (s.slot c.slot).state = .valid →
    c.serial = s.seq.serial → P (placeCursor .presenting c s)
  /-- R147. -/
  joinQueue : ∀ {s : State} (e : Change), P s → (s.slot e.slot).state = .valid → s.chu.queue.length < 4 →
    P (joinQueue e s)
  /-- R149. -/
  emptyQueue : ∀ {s : State}, P s → P (emptyQueue s)
  /-- R143. -/
  reset : ∀ {s : State}, P s → P (resetWeaving s)

/-- A property that every elementary update keeps, those of the receivers, of the queue and of power-on reset too. -/
structure Commanded (P : State → Prop) : Prop extends Governed P where
  /-- The receiver of a link and its request. -/
  receiver : ∀ {s : State} (l : LinkId) (f : Link → Link), P s → ((s.link l).attentive → (f (s.link l)).attentive) →
    P (s.modLink l f) := by intro s l f h _; cases l <;> exact h
  /-- The command at the front of the queue is taken. -/
  pending : ∀ {s : State} (q : List Instr), P s → P { s with pending := q } := by intros; assumption
  powerOn : ∀ {s : State} (encz wstop : Bool), P s →
    P { State.powerOn encz wstop with draws := s.draws, pending := s.pending }

/-! ### The dead-hook list -/

theorem mem_insertHook (x y : Nat) : ∀ l : List Nat, y ∈ insertHook x l ↔ y = x ∨ y ∈ l
  | [] => by simp [insertHook]
  | z :: l => by
    unfold insertHook
    split
    · simp
    · split
      next hz => subst hz; simp
      · rw [List.mem_cons, mem_insertHook x y l, List.mem_cons]
        exact or_left_comm

theorem length_insertHook_le (x : Nat) : ∀ l : List Nat, (insertHook x l).length ≤ l.length + 1
  | [] => by simp [insertHook]
  | z :: l => by
    unfold insertHook
    split
    · simp
    · split
      · simp
      · simpa using length_insertHook_le x l

theorem ascending_iff : ∀ l : List Nat, ascending l = true ↔ l.Pairwise (· < ·)
  | [] => by simp [ascending]
  | [_] => by simp [ascending]
  | a :: b :: l => by
    have ih := ascending_iff (b :: l)
    simp only [ascending, Bool.and_eq_true, decide_eq_true_eq, ih, List.pairwise_cons (a := a)]
    constructor
    · rintro ⟨hab, hp⟩
      refine ⟨fun y hy => ?_, hp⟩
      rcases List.mem_cons.1 hy with rfl | hy
      · exact hab
      · exact Nat.lt_trans hab ((List.pairwise_cons.1 hp).1 y hy)
    · exact fun ⟨h1, h2⟩ => ⟨h1 b List.mem_cons_self, h2⟩

theorem pairwise_insertHook (x : Nat) : ∀ l : List Nat, l.Pairwise (· < ·) → (insertHook x l).Pairwise (· < ·)
  | [], _ => by simp [insertHook]
  | z :: l, hp => by
    have hz := List.pairwise_cons.1 hp
    unfold insertHook
    split
    next hx =>
      refine List.pairwise_cons.2 ⟨fun y hy => ?_, hp⟩
      rcases List.mem_cons.1 hy with rfl | hy
      · exact hx
      · exact Nat.lt_trans hx (hz.1 y hy)
    · split
      · exact hp
      next h1 h2 =>
        refine List.pairwise_cons.2 ⟨fun y hy => ?_, pairwise_insertHook x l hz.2⟩
        rcases (mem_insertHook x y l).1 hy with rfl | hy
        · omega
        · exact hz.1 y hy

theorem ascending_insertHook (x : Nat) (l : List Nat) (h : ascending l = true) : ascending (insertHook x l) = true :=
  (ascending_iff _).2 (pairwise_insertHook x l ((ascending_iff l).1 h))

theorem ascending_filter (f : Nat → Bool) (l : List Nat) (h : ascending l = true) : ascending (l.filter f) = true :=
  (ascending_iff _).2 (((ascending_iff l).1 h).filter f)

/-! ### Checked counts -/

theorem weaveCheck_good {w n : Nat} {l : List Bool} (h : weaveCheck w n l = .good) : l.length = w * n := by
  unfold weaveCheck at h
  split at h
  · assumption
  · cases h

theorem countCheck_le {a b n : Nat} (h : countCheck a b n = .good) : n ≤ b := by
  unfold countCheck at h
  split at h
  next hn => exact hn.2
  · cases h

/-! ### SELECT-DESIGN -/

theorem discardStaging_setState (x : SeqState) (s : State) :
    { discardStaging s with seq := { (discardStaging s).seq with state := x } } =
      discardStaging { s with seq := { s.seq with state := x } } := by
  unfold discardStaging
  dsimp only
  split
  · rfl
  · split <;> rfl

/-- R125, R118: the cursor and PRESENTING come in one step, then the staging of another pick is discarded. -/
theorem selectCursor_eq (c : Cursor) (s : State) :
    selectCursor c s = departed s.seq.state (orderPresent
      (if s.seq.cursor = some c then placeCursor .presenting c s else discardStaging (placeCursor .presenting c s))) := by
  have hp : ∀ x, { placeCursor s.seq.state c s with seq := { (placeCursor s.seq.state c s).seq with state := x } } =
      placeCursor x c s := by
    intro x; unfold placeCursor releaseCursor; cases s.seq.cursor <;> rfl
  have hst : (placeCursor s.seq.state c s).seq.state = s.seq.state := by
    unfold placeCursor releaseCursor; cases s.seq.cursor <;> rfl
  have hm : moveCursor c s =
      if s.seq.cursor = some c then placeCursor s.seq.state c s else discardStaging (placeCursor s.seq.state c s) := rfl
  unfold selectCursor represent enterPresenting
  rw [hm]
  split
  · rw [hst, hp]
  · rw [discardStaging_setState, hp, (congrArg Seq.state (discardStaging_seq _)).trans hst]

/-! ### Links -/

theorem Link.attentive_countError {k : Link} (h : k.attentive) : k.countError.attentive := h
theorem Link.attentive_endFrame {k : Link} (h : k.attentive) : k.endFrame.attentive := h
theorem Link.attentive_take {k : Link} (c : Byte) (h : k.attentive) : (k.take c).attentive := h

theorem Link.attentive_startFrame {k : Link} (h : k.attentive) : k.startFrame.attentive := by
  unfold Link.startFrame; split <;> exact h

theorem Link.attentive_clear (k : Link) (c : List NoticeKind) (e : Bool) : (Link.clear c e k).attentive :=
  attentionOf_iff ..

theorem Link.attentive_setMask (k : Link) (m : List NoticeKind) : (Link.setMask m k).attentive := attentionOf_iff ..

theorem Link.attentive_breakLine {k : Link} (h : k.attentive) : k.breakLine.attentive := by
  unfold Link.breakLine
  split
  · exact h
  · split <;> exact h

theorem Link.attentive_sent {k : Link} (h : k.attentive) : k.sent.attentive := by
  unfold Link.sent
  split
  · exact h
  · split <;> exact h

namespace Steady
variable {P : State → Prop} (h : Steady P) {s : State}
include h

/-! ### Motion -/

omit h in
/-- A motion is granted in READY. -/
theorem granted {g : State → State} (hg : s.seq.state = .ready → P s → P (g s)) (r : Option Status)
    (hr : r = none → s.motionRefusal = none) (hs : P s) :
    P (match r with | some x => refuse s x | none => motionAnswer (g s)).1 := by
  cases r with
  | some x => exact hs
  | none =>
    have hm := hr rfl
    refine hg ?_ hs
    unfold State.motionRefusal at hm
    split at hm
    · cases hm
    · split at hm
      · cases hm
      next h2 => exact Classical.not_not.1 h2

theorem motionForward (hs : P s) : P (motionForward s).1 :=
  granted (g := Machine.grantForward) h.grantForward s.forwardRefusal (fun hr => by
    unfold State.forwardRefusal at hr
    split at hr
    · cases hr
    next hm => exact hm) hs

theorem motionFind (hs : P s) : P (motionFind s).1 := granted h.grantFind s.motionRefusal id hs

theorem motionPosition (hs : P s) : P (motionPosition s).1 :=
  granted (g := Machine.grantPosition) (fun _ => h.grantPosition) s.motionRefusal id hs

/-! ### The schedule, the guard and the change unit -/

theorem setSchedule (c : Schedule) (hs : P s) : P (setSchedule c s).1 := by
  unfold Machine.setSchedule
  split
  · split
    next hc => exact h.ang _ hs fun ⟨_, ht⟩ => ⟨hc, ht⟩
    · exact hs
  · exact hs

theorem onsets (g : Grd) (hs : P s) : P (onsets g s) := by
  unfold Machine.onsets
  dsimp only
  split
  · split
    · exact h.trigger _ (h.trigger _ (h.draws _ hs))
    · exact h.trigger _ (h.trigger _ (h.draws _ hs))
  · exact h.triggerWhen _ _ (h.triggerWhen _ _ hs)

theorem setGuard (g : GuardSetting) (hs : P s) : P (setGuard g s).1 := by
  unfold Machine.setGuard
  split
  next hg =>
    have h1 := h.onsets s.grd (h.grd (s.grd.set g) hs (guardSound_set hg) rfl)
    show P (replaceGuard g s)
    unfold replaceGuard
    dsimp only
    split
    · exact h.exitCheck h1
    · exact h1
  · exact hs

theorem readGuard (c : List Trigger) (hs : P s) : P { s with grd := s.grd.clearTotals c } :=
  h.grd _ hs (guardSound_levels rfl rfl rfl) rfl

theorem clearHalt (hs : P s) : P (clearHalt s).1 := by
  unfold Machine.clearHalt
  split
  next hc =>
    exact h.presentOwed (h.guardExit (.inr hc.1)
      (h.grd { s.grd with count := 0, run := 0 } hs (guardSound_countZero 0) rfl))
  · exact hs

theorem clearGuardCount (hs : P s) : P { s with grd := { s.grd with count := 0 } } :=
  h.grd _ hs (guardSound_countZero s.grd.run) rfl

theorem setMark (k : Nat) (m : CompMode) (v w : BitVec 8) (n p : Bool) (hs : P s) : P (setMark k m v w n p s).1 := by
  unfold Machine.setMark
  split
  · exact hs
  · split
    · split
      · exact hs
      · exact h.chu _ hs rfl
    · exact hs

/-! ### The weft unit -/

theorem serviceFeeder (f : Fin 8) (c : Service) (hs : P s) : P (serviceFeeder f c s) := by
  cases c with
  | into => exact h.changeFeeder f _ (fun _ => Feeder.sound_goIn) hs
  | out => exact h.changeFeeder f _ (fun _ => Feeder.sound_goOut) hs
  | keep => exact hs

theorem setLimit (k : Option Nat) (hk : limitOk k = true) (hs : P s) : P (setLimit k s) := by
  cases k with
  | none => exact hs
  | some n =>
    simp only [limitOk, Bool.and_eq_true, decide_eq_true_eq] at hk
    exact h.wft _ hs fun ⟨_, _, h3⟩ => ⟨hk.1, hk.2, h3⟩

theorem setFeederRequest (f : Nat) (c : Service) (k : Option Nat) (hs : P s) : P (Machine.setFeeder f c k s).1 := by
  unfold Machine.setFeeder
  split
  · exact hs
  · split
    next hk => exact h.serviceFeeder _ c (h.setLimit k hk hs)
    · exact hs

theorem feederState (f : Nat) (r : FeederReport) (hs : P s) : P (feederState f r s).1 := by
  unfold Machine.feederState
  split
  · exact hs
  · cases r with
    | out => exact h.changeFeeder _ _ (fun _ => Feeder.sound_goOut) hs
    | back => exact h.changeFeeder _ _ (fun _ => Feeder.sound_goIn) hs

theorem restoreFeeder (f : Nat) (hs : P s) : P (restoreFeeder f s).1 := by
  unfold Machine.restoreFeeder
  split
  · exact hs
  · dsimp only
    split
    · exact h.changeFeeder _ _ (fun _ => Feeder.sound_restored) hs
    · exact hs

theorem setGroup (g : Nat) (p q : Option Nat) (m : GroupMode) (hs : P s) : P (setGroup g p q m s).1 := by
  unfold Machine.setGroup
  split
  · exact hs
  · split
    · split
      · exact h.replanAfresh _ (h.wft _ hs (weftSound_groups rfl rfl rfl rfl))
      · exact hs
    · exact hs

theorem readWeft (l : LinkId) (f t : BitVec 8) (e y : Bool) (hs : P s) : P (readWeft l f t e y s).1 := by
  unfold Machine.readWeft
  split
  · exact hs
  · exact h.wft _ hs (weftSound_clear f t e y)

theorem lateFailure (e : HistEntry) (hs : P s) : P (lateFailure e s) := by
  have h1 := h.seq { s.seq with history := markSuspect e.serial s.seq.history } hs rfl rfl rfl
    (program_markSuspect ..)
  unfold Machine.lateFailure
  dsimp only
  refine h.trigger _ ?_
  split
  · exact h.setFeeder _ _ Feeder.sound_fail h1
  · exact h1

theorem weftReport (n : Half) (o : Insertion) (hs : P s) : P (weftReport n o s).1 := by
  unfold Machine.weftReport
  split
  · refine h.wft _ hs ?_
    unfold Wft.record
    split
    · exact id
    · exact weftSound_groups rfl rfl rfl rfl
  · split
    · exact hs
    · split
      · exact h.lateFailure _ hs
      · exact hs

/-! ### The hook chain -/

theorem busTest (x : BusTest) (hs : P s) : P { s with hcc := { s.hcc with busTest := x } } :=
  h.bus hs rfl rfl rfl rfl rfl

theorem census (hs : P s) : P (census s).1 := by
  unfold Machine.census; split
  · exact h.busTest _ hs
  · exact hs

theorem censusEnds (c : Option Nat) (hs : P s) : P (censusEnds c s) :=
  h.exitCheck (h.answer _ _ rfl (h.reportLevel (h.unlatched hs rfl rfl rfl rfl id)))

theorem hookTest (hs : P s) : P (hookTest s).1 := by
  unfold Machine.hookTest
  split
  · split
    · exact h.busTest _ hs
    · exact h.bus hs rfl rfl rfl rfl rfl
  · exact hs

theorem hookTestEnds (r : HookResult) (hs : P s) : P (hookTestEnds r s) :=
  h.answer _ _ rfl (h.bus hs rfl rfl rfl rfl rfl)

theorem echoErrors (v : Vector Nat 96) (hs : P s) : P { s with hcc := { s.hcc with echoErrors := v } } :=
  h.bus hs rfl rfl rfl rfl rfl

theorem readModules (c : List Nat) (hs : P s) : P (readModules c s).1 := by
  unfold Machine.readModules; split
  · exact h.echoErrors _ hs
  · exact hs

theorem refreshEnds (st : List EchoStatus) (ht : s.hcc.isTaking = false) (hs : P s) : P (refreshEnds st s) := by
  have h1 := h.updateStatuses st hs
  have e1 := updateStatuses_isTaking st s
  unfold Machine.refreshEnds
  dsimp only
  generalize Machine.updateStatuses st s = u at h1 e1 ⊢
  have h2 : P { u with hcc := { u.hcc with transfer := .idle, refreshClear := [] } } :=
    h.transferTo h1 rfl rfl rfl rfl fun hx => by rw [e1, ht] at hx; cases hx
  have h3 := h.answerModules (b8 0) s.hcc.refreshClear h2
  generalize Machine.answerModules _ _ _ = v at h3 ⊢
  have h4 := h.triggerWhen v.hcc.faultLevel .moduleFault (h.reportLevel h3)
  split
  · exact h.exitCheck h4
  · exact h4

theorem startRefresh (c : List Nat) (ht : s.hcc.transfer = .idle) (hs : P s) : P (startRefresh c s) := by
  have h1 : P { s with hcc := { s.hcc with transfer := .refreshing, refreshClear := c } } :=
    h.transferTo hs rfl rfl rfl rfl fun hx => by simp [Hcc.isTaking, ht] at hx
  unfold Machine.startRefresh
  dsimp only
  split
  · exact h.refreshEnds _ rfl h1
  · exact h1

theorem beginRefresh (c : List Nat) (hs : P s) : P (beginRefresh c s).1 := by
  unfold Machine.beginRefresh
  split
  · split
    next hr =>
      simp only [State.refreshable, Bool.and_eq_true, decide_eq_true_eq] at hr
      exact h.startRefresh c hr.2 hs
    · exact hs
  · exact hs

theorem setEchoBudget (t : Nat) (hs : P s) : P (setEchoBudget t s).1 := by
  unfold Machine.setEchoBudget
  split
  next ht => exact h.hcc _ hs (fun _ => ⟨ht.1, Nat.le_refl _, ht.2⟩) rfl rfl fun _ => id
  · exact hs

theorem reportExpansion (hs : P s) : P (reportExpansion s) := by
  unfold Machine.reportExpansion
  split
  · split
    · exact h.startTransfer (h.setPresent _ hs)
    · exact hs
  · exact hs

theorem transferEnds (n : Half) (echo : List ModuleEcho) (ht : s.hcc.isTaking = false) (hs : P s) :
    P (transferEnds n echo s) := by
  have h1 := h.transferResults n echo ht hs
  unfold Machine.transferEnds
  dsimp only
  refine h.reportTransfer n ?_
  split
  · exact h.exitCheck h1
  · exact h1

end Steady

/-! ### The requests and their owners -/

/-- What a request command asks: its link, its request, the check of its encoding and its owner. -/
structure Served where
  link : LinkId
  name : Request
  check : EncodingCheck
  owner : State → State × Reply

/-- The request of a command; the other commands have none. -/
def served : Instr → Option Served
  | .identify l => some ⟨l, .identify, .good, fun s => accept s (identifyRecord l)⟩
  | .readNotices l c e =>
    some ⟨l, .readNotices, .good, fun s => readNotices l c e.clear (overlapFirst e.overlapped l s)⟩
  | .setNoticeMask l m => some ⟨l, .setNoticeMask, .good, setNoticeMask l m⟩
  | .readStatus => some ⟨.p, .readStatus, .good, fun s => accept s (statusRecord s)⟩
  | .readiness => some ⟨.d, .readiness, .good, fun s => accept s (readinessRecord s)⟩
  | .motionForward => some ⟨.d, .motion, .good, motionForward⟩
  | .motionFind => some ⟨.d, .motion, .good, motionFind⟩
  | .motionPosition => some ⟨.d, .motion, .good, motionPosition⟩
  | .stop => some ⟨.d, .motion, .good, fun s => motionAnswer (stopMotion s)⟩
  | .setSchedule c => some ⟨.p, .setSchedule, .good, setSchedule c⟩
  | .readSchedule => some ⟨.p, .readSchedule, .good, fun s => accept s (bSchedule s.ang.sched)⟩
  | .defineDesign i w n m => some ⟨.p, .defineDesign, .good, defineDesign i w n m⟩
  | .writeFigure i c j v => some ⟨.p, .writeFigure, countCheck 1 8000 v.length, writeFigure i c j v⟩
  | .writeCards i c r => some ⟨.p, .writeCards, cardsCheck r, writeCards i c r⟩
  | .readFigure i c j n => some ⟨.p, .readFigure, countCheck 1 8000 n, readFigure i c j n⟩
  | .readCards i c n => some ⟨.p, .readCards, countCheck 1 512 n, readCards i c n⟩
  | .commitDesign i => some ⟨.p, .commitDesign, .good, commitDesign i⟩
  | .reopenDesign i => some ⟨.p, .reopenDesign, .good, reopenDesign i⟩
  | .eraseDesign i => some ⟨.p, .eraseDesign, .good, eraseDesign i⟩
  | .readStore => some ⟨.p, .readStore, .good, fun s => accept s (storeRecord s.fst)⟩
  | .defineWeave e w n l => some ⟨.p, .defineWeave, weaveCheck w n l, defineWeave e w n l⟩
  | .readWeave e => some ⟨.p, .readWeave, .good, readWeave e⟩
  | .setSection n r => some ⟨.p, .setSection, .good, setSection n r⟩
  | .setDeadList x => some ⟨.p, .setDeadList, countCheck 0 128 x.length, setDeadList x⟩
  | .addDeadHook x => some ⟨.p, .addDeadHook, .good, addDeadHook x⟩
  | .removeDeadHook x => some ⟨.p, .removeDeadHook, .good, removeDeadHook x⟩
  | .readHarness => some ⟨.p, .readHarness, .good, fun s => accept s (harnessRecord s.hmp)⟩
  | .setFeeder f c k => some ⟨.p, .setFeeder, .good, setFeeder f c k⟩
  | .restoreFeeder f => some ⟨.p, .restoreFeeder, .good, restoreFeeder f⟩
  | .setGroup g p q m => some ⟨.p, .setGroup, .good, setGroup g p q m⟩
  | .readWeft l f t e y => some ⟨l, .readWeft, .good, readWeft l f t e y⟩
  | .weftPlan => some ⟨.w, .weftPlan, .good, fun s => accept s (bList (fun r => bPlan r.1 r.2) (planRecords s))⟩
  | .weftReport n o => some ⟨.w, .weftReport, .good, weftReport n o⟩
  | .feederState f r => some ⟨.w, .feederState, .good, feederState f r⟩
  | .census => some ⟨.p, .census, .good, census⟩
  | .hookTest => some ⟨.p, .hookTest, .good, hookTest⟩
  | .readModules c => some ⟨.p, .readModules, .good, readModules c⟩
  | .statusRefresh c => some ⟨.p, .readModules, .good, beginRefresh c⟩
  | .setEchoBudget t => some ⟨.p, .setEchoBudget, .good, setEchoBudget t⟩
  | .selectDesign i c => some ⟨.p, .selectDesign, .good, selectDesign i c⟩
  | .readHistory d n => some ⟨.p, .readHistory, if n = 0 then .badArgument else .good, readHistory d n⟩
  | .resetSequencer => some ⟨.p, .resetSequencer, .good, fun s => accept (resetWeaving s) []⟩
  | .queueChange i c k f => some ⟨.p, .queueChange, .good, queueChange i c k f⟩
  | .cancelChanges => some ⟨.p, .cancelChanges, .good, fun s => accept (emptyQueue s) (b8 s.chu.queue.length)⟩
  | .readChanges => some ⟨.p, .readChanges, .good, fun s => accept s (changesRecord s.chu)⟩
  | .setMark k m v w n p => some ⟨.p, .setMark, .good, setMark k m v w n p⟩
  | .setGuard g => some ⟨.p, .setGuard, .good, setGuard g⟩
  | .readGuard c => some ⟨.p, .readGuard, .good,
      fun s => accept { s with grd := s.grd.clearTotals c } (guardRecord s.grd s.seq.coasting)⟩
  | .clearHalt => some ⟨.p, .clearHalt, .good, clearHalt⟩
  | .clearGuardCount =>
    some ⟨.p, .clearGuardCount, .good, fun s => accept { s with grd := { s.grd with count := 0 } } (b8 s.grd.count)⟩
  | _ => none

/-- A request of a frame is the request of its command. -/
theorem runRequest_eq (c : Instr) (s : State) :
    runRequest c s = .next ((served c).elim s fun o => request o.link o.name o.check o.owner s) := by
  cases c <;> rfl

/-- A request command is its request. -/
theorem exec_served {c : Instr} {o : Served} (h : served c = some o) (s : State) :
    exec c s = .next (request o.link o.name o.check o.owner s) := by
  cases c <;> cases h <;> rfl

/-- What a request command asks is on its link, by its name. -/
theorem asRequest_eq (c : Instr) : c.asRequest = (served c).map fun o => (o.link, o.name) := by
  cases c <;> rfl

namespace Governed
variable {P : State → Prop} (h : Governed P) {s : State}
include h

/-! ### The store -/

omit h in
theorem withSlot (slot : Nat) {f : Fin 8 → Slot → State × Reply} (hf : ∀ i, P (f i (s.slot i)).1) (hs : P s) :
    P (withSlot slot s f).1 := by
  unfold Machine.withSlot; split
  · exact hs
  · exact hf _

theorem defineDesign (slot w n : Nat) (map : Vector Nat 16) (hs : P s) : P (defineDesign slot w n map s).1 := by
  refine withSlot slot (fun i => ?_) hs
  split
  · exact hs
  next he =>
    split
    · exact hs
    · split
      · exact hs
      next hf => exact h.define i w n map hs (Classical.not_not.1 he) (Nat.not_lt.1 hf)

/-- A write into the design of a slot. -/
theorem write (i : Fin 8) (f : Design → Design) (hf : ∀ d : Design, d.canonical → (f d).canonical) (hs : P s) :
    P { s with fst := s.fst.modSlot i (·.modDesign f) } := by
  refine h.slot i _ hs ⟨rfl, rfl, fun hc d hd => ?_, fun _ hv => hv, fun he => he⟩
  obtain ⟨d', hd', rfl⟩ := Option.map_eq_some_iff.1 hd
  exact hf d' (hc d' hd')

theorem writeFigure (slot card col : Nat) (v : List (BitVec 4)) (hs : P s) : P (writeFigure slot card col v s).1 := by
  refine withSlot slot (fun i => ?_) hs
  split
  · split
    · exact h.write i _ (fun d => canonical_writeRun v d _) hs
    · exact hs
  · exact hs

theorem writeCards (slot card : Nat) (r : List CardRecord) (hs : P s) : P (writeCards slot card r s).1 := by
  refine withSlot slot (fun i => ?_) hs
  split
  · split
    · exact h.write i _ (fun d => canonical_writeCards r d _) hs
    · exact hs
  · exact hs

omit h in
theorem readFigure (slot card col n : Nat) (hs : P s) : P (readFigure slot card col n s).1 := by
  refine withSlot slot (fun i => ?_) hs
  split
  · exact hs
  · exact hs
  · split <;> exact hs

omit h in
theorem readCards (slot card n : Nat) (hs : P s) : P (readCards slot card n s).1 := by
  refine withSlot slot (fun i => ?_) hs
  split
  · exact hs
  · exact hs
  · split <;> exact hs

theorem scanning (i : Fin 8) (b : Bool) (hs : P s) :
    P { s with fst := s.fst.modSlot i fun x => { x with scanning := b } } :=
  h.slot i _ hs ⟨rfl, rfl, fun hc => hc, fun _ hv => hv, fun he => he⟩

theorem commitDesign (slot : Nat) (hs : P s) : P (commitDesign slot s).1 := by
  refine withSlot slot (fun i => ?_) hs
  split
  · exact h.scanning i true hs
  · exact hs

theorem reopenDesign (slot : Nat) (hs : P s) : P (reopenDesign slot s).1 := by
  refine withSlot slot (fun i => ?_) hs
  split
  · exact hs
  · split
    · exact hs
    next hh => exact h.slot i _ hs ⟨rfl, rfl, fun hc => hc, fun hx => absurd hx hh, nofun⟩

theorem eraseDesign (slot : Nat) (hs : P s) : P (eraseDesign slot s).1 := by
  refine withSlot slot (fun i => ?_) hs
  split
  · exact hs
  next hl => exact h.erase i hs (.inl hl)
  · split
    · exact hs
    next hh => exact h.erase i hs (.inr (Bool.eq_false_iff.2 hh))

/-! ### The harness -/

theorem mapWritten (hs : P s) : P (mapWritten s) := by
  unfold Machine.mapWritten
  split
  next hr => exact h.represent hr (h.seq _ hs rfl rfl rfl rfl)
  · exact hs

theorem defineWeave (entry w n : Nat) (lifts : List Bool) (hl : lifts.length = w * n) (hs : P s) :
    P (defineWeave entry w n lifts s).1 := by
  unfold Machine.defineWeave
  split
  · exact hs
  next i _ =>
    dsimp only
    split
    · exact hs
    · split
      · exact hs
      · split
        next hr =>
          have h1 : P { s with wlb := upd s.wlb i ⟨w, n, lifts⟩ } :=
            h.wlb _ hs fun hh => ⟨fun v => by rw [get_upd_eq]; split
                                              · exact ⟨hr.1, hr.2.1, hr.2.2.1, hr.2.2.2, hl⟩
                                              · exact hh.1 v, hh.2⟩
          simp only [accept]
          split
          · exact h.mapWritten h1
          · exact h1
        · exact hs

theorem setSection (number : Nat) (r : Option SectionRecord) (hs : P s) : P (setSection number r s).1 := by
  unfold Machine.setSection
  split
  · exact hs
  next n _ =>
    split
    · split
      next hr =>
        exact h.mapWritten (h.hmp { s.hmp with sections := upd s.hmp.sections n r } hs fun hh =>
          ⟨hh.1, fun m => by
            show sectionArgOk ((upd s.hmp.sections n r).get m) = true
            rw [get_upd_eq]; split
            · exact hr
            · exact hh.2.1 m, hh.2.2⟩)
      · exact hs
    · exact hs

/-- The dead list replaced by one that keeps R47 when the old one did. -/
theorem setDead (l : List Nat)
    (hl : (ascending s.hmp.dead = true ∧ s.hmp.dead.length ≤ 128 ∧ ∀ x ∈ s.hmp.dead, x ≤ 12287) →
      ascending l = true ∧ l.length ≤ 128 ∧ ∀ x ∈ l, x ≤ 12287) (hs : P s) : P (setDead l s) :=
  h.mapWritten (h.hmp _ hs fun ⟨h1, h2, h3⟩ => ⟨h1, h2, hl h3⟩)

theorem setDeadList (l : List Nat) (hn : l.length ≤ 128) (hs : P s) : P (setDeadList l s).1 := by
  unfold Machine.setDeadList
  split
  · split
    next hl =>
      simp only [Bool.and_eq_true, List.all_eq_true, decide_eq_true_eq] at hl
      exact h.setDead l (fun _ => ⟨hl.2, hn, hl.1⟩) hs
    · exact hs
  · exact hs

theorem addDeadHook (x : Nat) (hs : P s) : P (addDeadHook x s).1 := by
  unfold Machine.addDeadHook
  split
  · exact hs
  next hx =>
    split
    · split
      · exact h.setDead _ id hs
      next hm =>
        split
        next hlt =>
          refine h.setDead _ (fun ⟨h1, _, h3⟩ => ⟨ascending_insertHook x _ h1, ?_, fun y hy => ?_⟩) hs
          · exact Nat.le_trans (length_insertHook_le ..) hlt
          · rcases (mem_insertHook ..).1 hy with rfl | hy
            · exact Nat.not_lt.1 hx
            · exact h3 y hy
        · exact hs
    · exact hs

theorem removeDeadHook (x : Nat) (hs : P s) : P (removeDeadHook x s).1 := by
  unfold Machine.removeDeadHook
  split
  · exact hs
  · split
    · exact h.setDead _ (fun ⟨h1, h2, h3⟩ => ⟨ascending_filter _ _ h1, Nat.le_trans (List.length_filter_le ..) h2,
        fun y hy => h3 y ((List.mem_filter.1 hy).1)⟩) hs
    · exact hs

/-! ### Selection and the change queue -/

theorem selectDesign (slot card : Nat) (hs : P s) : P (selectDesign slot card s).1 := by
  unfold Machine.selectDesign
  split
  · exact hs
  · split
    next hw =>
      split
      next hv _ =>
        split
        · show P (selectCursor _ s)
          rw [selectCursor_eq]
          refine h.departed _ (h.orderPresent ?_)
          split
          · exact h.select _ hs (writable_iff.1 hw) hv rfl
          · exact h.discardStaging (h.select _ hs (writable_iff.1 hw) hv rfl)
        · exact hs
      · exact hs
    · exact hs

theorem queueChange (slot card : Nat) (c : Condition) (f : Bool) (hs : P s) : P (queueChange slot card c f s).1 := by
  unfold Machine.queueChange
  split
  · exact hs
  · split
    · exact hs
    · split
      · exact hs
      · split
        next hv _ =>
          split
          · exact hs
          · split
            · exact hs
            next hn => exact h.joinQueue _ hs hv (Nat.not_le.1 hn)
        · exact hs

/-! ### Reads -/

omit h in
theorem readWeave (e : Nat) (hs : P s) : P (readWeave e s).1 := by
  unfold Machine.readWeave; split <;> exact hs

omit h in
theorem readHistory (d n : Nat) (hs : P s) : P (readHistory d n s).1 := by
  unfold Machine.readHistory; split <;> exact hs

/-! ### Every owner -/

/-- The owner of a request whose encoding is good, the two that write on their link apart. -/
theorem owner {c : Instr} {o : Served} (hc : served c = some o) (hg : o.check = .good)
    (hn : o.name ≠ .readNotices) (hm : o.name ≠ .setNoticeMask) (hs : P s) : P (o.owner s).1 := by
  cases c with
  | identify l => cases hc; exact hs
  | readNotices l c e => cases hc; exact absurd rfl hn
  | setNoticeMask l m => cases hc; exact absurd rfl hm
  | readStatus => cases hc; exact hs
  | readiness => cases hc; exact hs
  | motionForward => cases hc; exact h.motionForward hs
  | motionFind => cases hc; exact h.motionFind hs
  | motionPosition => cases hc; exact h.motionPosition hs
  | stop => cases hc; exact h.stopMotion hs
  | setSchedule c => cases hc; exact h.setSchedule _ hs
  | readSchedule => cases hc; exact hs
  | defineDesign i w n m => cases hc; exact h.defineDesign _ _ _ _ hs
  | writeFigure i c j v => cases hc; exact h.writeFigure _ _ _ _ hs
  | writeCards i c r => cases hc; exact h.writeCards _ _ _ hs
  | readFigure i c j n => cases hc; exact Governed.readFigure _ _ _ _ hs
  | readCards i c n => cases hc; exact Governed.readCards _ _ _ hs
  | commitDesign i => cases hc; exact h.commitDesign _ hs
  | reopenDesign i => cases hc; exact h.reopenDesign _ hs
  | eraseDesign i => cases hc; exact h.eraseDesign _ hs
  | readStore => cases hc; exact hs
  | defineWeave e w n l => cases hc; exact h.defineWeave _ _ _ _ (weaveCheck_good hg) hs
  | readWeave e => cases hc; exact Governed.readWeave _ hs
  | setSection n r => cases hc; exact h.setSection _ _ hs
  | setDeadList l => cases hc; exact h.setDeadList _ (countCheck_le hg) hs
  | addDeadHook x => cases hc; exact h.addDeadHook _ hs
  | removeDeadHook x => cases hc; exact h.removeDeadHook _ hs
  | readHarness => cases hc; exact hs
  | setFeeder f c k => cases hc; exact h.setFeederRequest _ _ _ hs
  | restoreFeeder f => cases hc; exact h.restoreFeeder _ hs
  | setGroup g p q m => cases hc; exact h.setGroup _ _ _ _ hs
  | readWeft l f t e y => cases hc; exact h.readWeft _ _ _ _ _ hs
  | weftPlan => cases hc; exact hs
  | weftReport n o => cases hc; exact h.weftReport _ _ hs
  | feederState f r => cases hc; exact h.feederState _ _ hs
  | census => cases hc; exact h.census hs
  | hookTest => cases hc; exact h.hookTest hs
  | readModules c => cases hc; exact h.readModules _ hs
  | statusRefresh c => cases hc; exact h.beginRefresh _ hs
  | setEchoBudget t => cases hc; exact h.setEchoBudget _ hs
  | selectDesign i c => cases hc; exact h.selectDesign _ _ hs
  | readHistory d n => cases hc; exact Governed.readHistory _ _ hs
  | resetSequencer => cases hc; exact h.reset hs
  | queueChange i c k f => cases hc; exact h.queueChange _ _ _ _ hs
  | cancelChanges => cases hc; exact h.emptyQueue hs
  | readChanges => cases hc; exact hs
  | setMark k m v w n p => cases hc; exact h.setMark _ _ _ _ _ _ hs
  | setGuard g => cases hc; exact h.setGuard _ hs
  | readGuard c => cases hc; exact h.readGuard _ hs
  | clearHalt => cases hc; exact h.clearHalt hs
  | clearGuardCount => cases hc; exact h.clearGuardCount hs
  | _ => cases hc

end Governed

/-- A property that the receivers keep, and the owner of every request that is accepted. -/
structure Attended (P : State → Prop) : Prop where
  /-- The receiver of a link and its request. -/
  receiver : ∀ {s : State} (l : LinkId) (f : Link → Link), P s → ((s.link l).attentive → (f (s.link l)).attentive) →
    P (s.modLink l f)
  /-- The owner of a request whose encoding is good. -/
  owner : ∀ {c : Instr} {o : Served} {s : State}, served c = some o → o.check = .good → P s → P (o.owner s).1

namespace Attended
variable {P : State → Prop} (h : Attended P) {s : State}
include h

theorem respond (l : LinkId) (r : Response) (hs : P s) : P (Machine.answer l r s) :=
  h.receiver l _ hs (Link.attentive_answer r _)

theorem answerFrameError (l : LinkId) (hs : P s) : P (answerFrameError l s) :=
  h.respond l _ (h.receiver l _ hs Link.attentive_countError)

theorem serve (l : LinkId) (r : Request) (check : EncodingCheck) {owner : State → State × Reply}
    (ho : check = .good → ∀ {u : State}, P u → P (owner u).1) (hs : P s) : P (serve l r check owner s) := by
  unfold Machine.serve
  split
  · cases check with
    | frameError => exact h.answerFrameError l hs
    | badArgument => exact h.respond l _ hs
    | good =>
      have hu := ho rfl hs
      dsimp only
      split
      next e => rw [e] at hu; exact h.respond l _ hu
      next e => rw [e] at hu; exact hu
  · exact h.respond l _ hs

/-- What the owner of a checked request keeps, the request keeps. -/
theorem requestChecked (l : LinkId) (r : Request) (check : EncodingCheck) {owner : State → State × Reply}
    (ho : check = .good → ∀ {u : State}, P u → P (owner u).1) (hs : P s) : P (request l r check owner s) := by
  unfold Machine.request
  split
  · exact h.receiver l _ hs Link.attentive_endFrame
  · exact h.receiver l _ hs Link.attentive_countError
  · exact h.serve l r check ho (h.receiver l _ hs (Link.attentive_take _))
  · exact h.serve l r check ho (h.receiver l _ hs (Link.attentive_take _))

/-- The requests, on any path that brings them. -/
theorem runRequest (c : Instr) {t : State} (hs : P s) (ht : runRequest c s = .next t) : P t := by
  rw [runRequest_eq] at ht
  injection ht with ht
  subst ht
  cases hc : served c with
  | none => exact hs
  | some o => exact h.requestChecked _ _ _ (fun hg _ => h.owner hc hg) hs

theorem endFrame (l : LinkId) (a : Assembly) {t : State} (hs : P s) (ht : endFrame l a s = .next t) : P t := by
  have hk := h.receiver l _ hs (Link.attentive_take a.code)
  unfold Machine.endFrame at ht
  split at ht
  · injection ht with e; subst e; exact h.answerFrameError l hk
  · injection ht with e; subst e; exact h.respond l _ hk
  · injection ht with e; subst e; exact h.respond l _ hk
  · exact h.runRequest _ hs ht

theorem receiveChar (l : LinkId) (c : LineChar) {t : State} (hs : P s) (ht : receiveChar l c s = .next t) : P t := by
  unfold Machine.receiveChar at ht
  dsimp only at ht
  split at ht
  · injection ht with e
    subst e
    split
    · exact h.receiver l _ hs Link.attentive_startFrame
    · exact hs
  · split at ht
    · exact h.endFrame l _ hs ht
    · injection ht with e; subst e; exact h.receiver l _ hs id
  · injection ht with e
    subst e
    refine h.receiver l _ hs fun hk => ?_
    split
    · exact hk
    · exact hk

theorem receive (l : LinkId) : ∀ (cs : List LineChar) {s t : State}, P s → receive l cs s = .next t → P t
  | [], s, t, hs, ht => by injection ht with e; subst e; exact hs
  | c :: cs, s, t, hs, ht => by
    unfold Machine.receive at ht
    split at ht
    next u hu => exact receive l cs (h.receiveChar l c hs hu) ht
    · cases ht
    · cases ht

end Attended

namespace Commanded
variable {P : State → Prop} (h : Commanded P) {s : State}
include h

/-! ### Links -/

theorem readNotices (l : LinkId) (c : List NoticeKind) (e : Bool) (hs : P s) : P (readNotices l c e s).1 := by
  unfold Machine.readNotices; split
  · exact h.receiver l _ hs fun _ => Link.attentive_clear ..
  · exact hs

theorem overlapFirst (o : Bool) (l : LinkId) (hs : P s) : P (overlapFirst o l s) := by
  unfold Machine.overlapFirst; split
  · exact h.receiver l _ hs Link.attentive_startFrame
  · exact hs

theorem setNoticeMask (l : LinkId) (m : List NoticeKind) (hs : P s) : P (setNoticeMask l m s).1 := by
  unfold Machine.setNoticeMask; split
  · exact h.receiver l _ hs fun _ => Link.attentive_setMask ..
  · exact hs

/-- The owner of a request whose encoding is good. -/
theorem owner {c : Instr} {o : Served} (hc : served c = some o) (hg : o.check = .good) (hs : P s) : P (o.owner s).1 := by
  cases c with
  | readNotices l c e => cases hc; exact h.readNotices _ _ _ (h.overlapFirst _ _ hs)
  | setNoticeMask l m => cases hc; exact h.setNoticeMask _ _ hs
  | _ => exact h.toGoverned.owner hc hg (by cases hc <;> nofun) (by cases hc <;> nofun) hs

theorem attended : Attended P := ⟨h.receiver, h.owner⟩

theorem endScan (i : Fin 8) (hs : P s) : P (endScan i s) := by
  unfold Machine.endScan
  split
  · exact h.attended.respond _ _ (h.scanning i false hs)
  · split
    · exact h.attended.respond _ _ (h.slot i _ hs ⟨rfl, rfl, fun hc => hc, fun _ _ => rfl, nofun⟩)
    · exact h.attended.respond _ _ (h.scanning i false hs)

/-! ### Every command -/

/-- Every command keeps what the elementary updates keep. -/
theorem exec (c : Instr) {t : State} (hs : P s) (ht : exec c s = .next t) : P t := by
  have known : ∀ {u : State}, P u → Host.Outcome.next (φ := Fault) (ρ := Refusal) u = .next t → P t :=
    fun hu e => by injection e with e; subst e; exact hu
  have requested : Machine.exec c s = Machine.runRequest c s → P t := fun e => h.attended.runRequest c hs (e ▸ ht)
  cases c with
  | encoderStep d z => exact known (h.encoderStep d z hs) ht
  | encoderError z => exact known (h.encoderError z hs) ht
  | settleTimerExpiry =>
    simp only [Machine.exec, execSettleTimerExpiry] at ht
    split at ht
    · exact known hs ht
    · exact known (h.exitCheck (h.restHandling _ (h.declareRest hs))) ht
  | stallTimerExpiry =>
    simp only [Machine.exec, execStallTimerExpiry] at ht
    split at ht
    · exact known hs ht
    next hr => exact known (h.trigger _ (h.stallExpires (by rw [hr]; nofun) hs)) ht
  | wstopChange v =>
    simp only [Machine.exec, execWstopChange] at ht
    split at ht
    · exact known hs ht
    · exact known (h.filter _ _ _ hs) ht
  | filterTimerExpiry =>
    simp only [Machine.exec, execFilterTimerExpiry] at ht
    have h1 := h.filter none s.grd.rawWarp s.grd.rawWarp hs
    split at ht
    · exact known hs ht
    · split at ht
      · exact known (h.trigger _ h1) ht
      · exact known (h.exitCheck h1) ht
      · exact known h1 ht
      · exact known h1 ht
  | arrivalEdge =>
    simp only [Machine.exec, execArrivalEdge] at ht
    have hraise : ∀ n : Nat, n ≤ 65535 → raiseTo 65535 n ≤ 65535 := fun n hn => by
      unfold raiseTo; split <;> omega
    split at ht
    · exact known (h.countEdges _ id id hs) ht
    · exact known (h.countEdges s.wft.capture (hraise _) id hs) ht
    · exact known (h.countEdges s.wft.capture id (hraise _) hs) ht
  | powerOnReset z w => exact known (h.powerOn z w hs) ht
  | lineBreak l => exact known (h.receiver l _ hs Link.attentive_breakLine) ht
  | frameError l cs => exact h.attended.receive l cs hs ht
  | unknownRequest l cs => exact h.attended.receive l cs hs ht
  | overlappingFrame l cs => exact h.attended.receive l cs hs ht
  | encodingFault l cs => exact h.attended.receive l cs hs ht
  | responseSent l => exact known (h.receiver l _ hs Link.attentive_sent) ht
  | commitScanEnd =>
    simp only [Machine.exec, execCommitScanEnd] at ht
    split at ht
    · exact known hs ht
    · exact known (h.endScan _ hs) ht
  | censusResult m =>
    simp only [Machine.exec, execCensusResult] at ht
    split at ht
    · exact known (h.censusEnds _ hs) ht
    · exact known hs ht
  | hookTestEnd st =>
    simp only [Machine.exec, execHookTestEnd] at ht
    split at ht
    · exact known (h.hookTestEnds _ hs) ht
    · exact known hs ht
  | refreshCompletion st =>
    simp only [Machine.exec, execRefreshCompletion] at ht
    split at ht
    next hr => exact known (h.refreshEnds st (by simp [Hcc.isTaking, hr]) hs) ht
    · exact known hs ht
  | jobCompletion =>
    simp only [Machine.exec, execJobCompletion] at ht
    split at ht
    · exact known hs ht
    · exact known (h.reportExpansion (h.completeJob _ hs)) ht
  | transferCompletion echo =>
    simp only [Machine.exec, execTransferCompletion] at ht
    split at ht
    next hr => exact known (h.transferEnds _ echo (by simp [Hcc.isTaking, hr]) hs) ht
    all_goals exact known hs ht
  | takeCompletion =>
    simp only [Machine.exec, execTakeCompletion] at ht
    split at ht
    · exact known (h.takeEnds hs) ht
    all_goals exact known hs ht
  | _ => exact requested rfl

/-- Every step keeps what the elementary updates keep. -/
theorem step {t : State} (hs : P s) (ht : step s = .next t) : P t := by
  unfold Machine.step at ht
  split at ht
  · injection ht with e; subst e; exact hs
  · exact h.exec _ (h.pending _ hs) ht

end Commanded

end Sys2Proof.Machine
end

section
/-! PROOFS. The invariants that speak of bounds of single units: each is kept by plain updates of the units, and so by
every step (O4, O5, O6, O7, O9, O10, O11, O12). -/

namespace Sys2Proof.Machine

/-! ### References by themselves -/

/-- From `s` to `t` the reference counts of the slots may have changed, and nothing else. -/
structure State.Recounted (s t : State) : Prop where
  only : t = { s with fst := t.fst }
  owner : t.fst.owner = s.fst.owner
  free : t.fst.free = s.fst.free
  slots : ∀ i, t.slot i = { s.slot i with refs := (t.slot i).refs }

namespace State.Recounted

theorem refl (s : State) : s.Recounted s := ⟨rfl, rfl, rfl, fun _ => rfl⟩

theorem trans {s t u : State} (h : s.Recounted t) (k : t.Recounted u) : s.Recounted u :=
  ⟨k.only.trans (by rw [h.only]), k.owner.trans h.owner, k.free.trans h.free, fun i => by
    rw [k.slots i, h.slots i]⟩

theorem seq_eq {s t : State} (h : s.Recounted t) : t.seq = s.seq := by rw [h.only]
theorem chu_eq {s t : State} (h : s.Recounted t) : t.chu = s.chu := by rw [h.only]
theorem hcc_eq {s t : State} (h : s.Recounted t) : t.hcc = s.hcc := by rw [h.only]
theorem xpe_eq {s t : State} (h : s.Recounted t) : t.xpe = s.xpe := by rw [h.only]
theorem wft_eq {s t : State} (h : s.Recounted t) : t.wft = s.wft := by rw [h.only]
theorem grd_eq {s t : State} (h : s.Recounted t) : t.grd = s.grd := by rw [h.only]
theorem ang_eq {s t : State} (h : s.Recounted t) : t.ang = s.ang := by rw [h.only]
theorem plk_eq {s t : State} (h : s.Recounted t) : t.plk = s.plk := by rw [h.only]
theorem dlk_eq {s t : State} (h : s.Recounted t) : t.dlk = s.dlk := by rw [h.only]
theorem wlk_eq {s t : State} (h : s.Recounted t) : t.wlk = s.wlk := by rw [h.only]

theorem design_eq {s t : State} (h : s.Recounted t) (i : Fin 8) : t.design i = s.design i :=
  by rw [State.design, h.slots i]; rfl

theorem state_eq {s t : State} (h : s.Recounted t) (i : Fin 8) : (t.slot i).state = (s.slot i).state :=
  by rw [h.slots i]

/-- Two changes of different units, of which one recounts. -/
theorem setSeq {s t : State} (h : s.Recounted t) (q : Seq) : { s with seq := q }.Recounted { t with seq := q } :=
  ⟨by rw [h.only], h.owner, h.free, h.slots⟩

end State.Recounted

theorem recounted_modRefs (i : Fin 8) (f : Refs → Refs) (s : State) :
    s.Recounted { s with fst := s.fst.modSlot i fun x => { x with refs := f x.refs } } := by
  refine ⟨rfl, rfl, rfl, fun j => ?_⟩
  simp only [State.slot, slots_modSlot]
  split
  next hj => rw [hj]
  · rfl

theorem recounted_claim (r : HoldReason) (i : Fin 8) (s : State) : s.Recounted (claim r i s) :=
  recounted_modRefs i (·.modify (· + 1) r) s
theorem recounted_release (r : HoldReason) (i : Fin 8) (s : State) : s.Recounted (release r i s) :=
  recounted_modRefs i (·.modify (· - 1) r) s

theorem recounted_releaseCursor (c : Option Cursor) (s : State) : s.Recounted (releaseCursor c s) := by
  cases c with
  | none => exact .refl s
  | some c => exact recounted_release ..

theorem recounted_releaseLatched (l : Latched) (s : State) : s.Recounted (releaseLatched l s) := by
  unfold releaseLatched; split
  · exact recounted_release ..
  · exact .refl s

theorem recounted_releaseStaged (x : Staging) (s : State) : s.Recounted (releaseStaged x s) := by
  unfold releaseStaged; split
  · exact recounted_release ..
  · exact .refl s

theorem recounted_claimEntry (e : HistEntry) (s : State) : s.Recounted (claimEntry e s) := by
  unfold claimEntry; dsimp only; split
  · exact (recounted_claim ..).trans (recounted_claim ..)
  · exact recounted_claim ..

theorem recounted_releaseEntry (e : HistEntry) (s : State) : s.Recounted (releaseEntry e s) := by
  unfold releaseEntry; dsimp only; split
  · exact (recounted_release ..).trans (recounted_release ..)
  · exact recounted_release ..

theorem recounted_releaseEntries (es : List HistEntry) : ∀ s : State, s.Recounted (releaseEntries es s) := by
  induction es with
  | nil => exact .refl
  | cons e es ih => exact fun s => (recounted_releaseEntry e s).trans (ih _)

theorem recounted_releaseChanges (q : List Change) :
    ∀ s : State, s.Recounted (q.foldl (fun s c => releaseChange c s) s) := by
  induction q with
  | nil => exact .refl
  | cons c q ih => exact fun s => (recounted_release ..).trans (ih _)

theorem recounted_releaseProgram (s : State) : s.Recounted (releaseProgram s) :=
  ((recounted_releaseChanges ..).trans (recounted_releaseEntries ..)).trans (recounted_releaseCursor ..)

/-- R129: the history with the entry joined and at most 64 entries kept. -/
def Seq.joined (q : Seq) (e : HistEntry) : Seq :=
  { q with history := (q.history ++ [e]).drop ((q.history ++ [e]).length - 64) }

theorem recounted_appendEntry (e : HistEntry) (s : State) : { s with seq := s.seq.joined e }.Recounted (appendEntry e s) :=
  ((recounted_claimEntry e s).setSeq _).trans (recounted_releaseEntries ..)

theorem recounted_placeCursor (x : SeqState) (c : Cursor) (s : State) :
    { s with seq := { s.seq with cursor := some c, serial := c.serial, state := x } }.Recounted (placeCursor x c s) :=
  ((recounted_claim ..).setSeq _).trans (recounted_releaseCursor ..)

/-- A property of the units by themselves: it does not ask which picks the records name, so that reference counts, records
and queues may change within their bounds. -/
structure Local (P : State → Prop) : Prop where
  link : ∀ {s : State} (l : LinkId) (f : Link → Link), P s → ((s.link l).attentive → (f (s.link l)).attentive) →
    (s.link l).noted (f (s.link l)) → P (s.modLink l f) := by intro s l f h _ _; cases l <;> exact h
  wft : ∀ {s : State} (w : Wft), P s → (s.weftSound → { s with wft := w }.weftSound) → P { s with wft := w } := by
    intros; assumption
  grd : ∀ {s : State} (g : Grd), P s → (s.guardSound → { s with grd := g }.guardSound) →
    g.stopRequest = s.grd.stopRequest → P { s with grd := g } := by intros; assumption
  ang : ∀ {s : State} (a : Ang), P s → (s.trackerSound → { s with ang := a }.trackerSound) → P { s with ang := a } := by
    intros; assumption
  draws : ∀ {s : State} (k : Nat), P s → P { s with draws := k } := by intros; assumption
  hcc : ∀ {s : State} (h : Hcc), P s → (s.budgetSound → { s with hcc := h }.budgetSound) → P { s with hcc := h } := by
    intros; assumption
  xpe : ∀ {s : State} (x : Xpe), P s → P { s with xpe := x } := by intros; assumption
  seq : ∀ {s : State} (q : Seq), P s → q.state = s.seq.state → P { s with seq := q } := by intros; assumption
  chu : ∀ {s : State} (u : Chu), P s → (s.queueBounded → u.queue.length ≤ 4) → P { s with chu := u } := by
    intros; assumption
  slot : ∀ {s : State} (i : Fin 8) (f : Slot → Slot), P s → (f (s.slot i)).blocks = (s.slot i).blocks →
    ((s.slot i).canonical → (f (s.slot i)).canonical) → ((f (s.slot i)).state = .empty → (s.slot i).state = .empty) →
    P { s with fst := s.fst.modSlot i f } := by intros; assumption
  define : ∀ {s : State} (i : Fin 8) (w n : Nat) (map : Vector Nat 16), P s → (s.slot i).state = .empty →
    blocksNeeded w n ≤ s.fst.free → P { s with fst := s.fst.define i w n map } := by intros; assumption
  erase : ∀ {s : State} (i : Fin 8), P s → P { s with fst := s.fst.erase i } := by intros; assumption
  wlb : ∀ {s : State} (v : Vector Weave 32), P s → (s.harnessSound → { s with wlb := v }.harnessSound) →
    P { s with wlb := v } := by intros; assumption
  hmp : ∀ {s : State} (m : Hmp), P s → (s.harnessSound → { s with hmp := m }.harnessSound) → P { s with hmp := m } := by
    intros; assumption
  /-- A move outside guard, not out of RUNNING with the stall watch on. -/
  move : ∀ {s : State} (x : SeqState), P s → s.seq.state ≠ .guard ∧ s.seq.state ≠ .halted → x ≠ .guard ∧ x ≠ .halted →
    (s.seq.state = .running → s.ang.stallWatch = .off) → P { s with seq := { s.seq with state := x } } := by
    intros; assumption
  /-- A move that sets the stop request as the new state has it, with the stall watch off. -/
  settle : ∀ {s : State} (x : SeqState) (b : Bool), P s → (b = true ↔ x = .guard ∨ x = .halted) →
    (s.seq.state = .running → s.ang.stallWatch = .off) →
    P { s with seq := { s.seq with state := x }, grd := { s.grd with stopRequest := b } } := by
    intros; assumption

namespace Local
variable {P : State → Prop} (h : Local P) {s : State}
include h

theorem claim (r : HoldReason) (i : Fin 8) (hs : P s) : P (claim r i s) := h.slot i _ hs rfl id id
theorem release (r : HoldReason) (i : Fin 8) (hs : P s) : P (release r i s) := h.slot i _ hs rfl id id

theorem releaseCursor (c : Option Cursor) (hs : P s) : P (releaseCursor c s) := by
  cases c with
  | none => exact hs
  | some c => exact h.release _ _ hs

theorem releaseLatched (l : Latched) (hs : P s) : P (releaseLatched l s) := by
  unfold Machine.releaseLatched; split
  · exact h.release _ _ hs
  · exact hs

theorem hooks (x : Xpe) (y : Hcc) (hs : P s) (hb : s.budgetSound → { s with hcc := y }.budgetSound) :
    P { s with xpe := x, hcc := y } :=
  h.xpe x (h.hcc y hs hb)

/-- What the updates of the hook chain ask, a property of the units by themselves does not ask. -/
theorem hooked : Hooked P where
  link := h.link
  wft := h.wft
  hcc := fun x hs hb _ _ _ => h.hcc x hs hb
  xpe := fun x hs _ => h.xpe x hs
  unstage := fun _ hs _ _ => h.release _ _ (h.xpe _ hs)
  unlatch := fun _ x hs _ _ hb _ _ => h.release _ _ (h.hcc x hs hb)

theorem placeCursor (x : SeqState) (c : Cursor) (hs : P s)
    (hx : ∀ {u : State}, P u → u.seq.state = s.seq.state → u.ang = s.ang → P { u with seq := { u.seq with state := x } }) :
    P (placeCursor x c s) := by
  have h1 := h.seq { s.seq with cursor := some c, serial := c.serial } (h.claim .cursor c.slot hs) rfl
  exact h.releaseCursor _ (hx h1 rfl rfl)

theorem moveCursor (c : Cursor) (hs : P s) : P (moveCursor c s) := by
  have h1 : P (Machine.placeCursor s.seq.state c s) := h.placeCursor _ c hs fun hu e _ => h.seq _ hu e.symm
  unfold Machine.moveCursor
  dsimp only
  split
  · exact h1
  · exact h.hooked.discardStaging h1

theorem claimEntry (e : HistEntry) (hs : P s) : P (claimEntry e s) := by
  unfold Machine.claimEntry
  dsimp only
  split
  · exact h.claim _ _ (h.claim _ _ hs)
  · exact h.claim _ _ hs

theorem releaseEntry (e : HistEntry) (hs : P s) : P (releaseEntry e s) := by
  unfold Machine.releaseEntry
  dsimp only
  split
  · exact h.release _ _ (h.release _ _ hs)
  · exact h.release _ _ hs

theorem releaseEntries (es : List HistEntry) : ∀ {s : State}, P s → P (releaseEntries es s) := by
  induction es with
  | nil => exact fun hs => hs
  | cons e es ih => exact fun hs => ih (h.releaseEntry e hs)

theorem releaseChanges (q : List Change) : ∀ {s : State}, P s → P (q.foldl (fun s c => releaseChange c s) s) := by
  induction q with
  | nil => exact fun hs => hs
  | cons c q ih => exact fun hs => ih (h.release _ _ hs)

theorem appendEntry (e : HistEntry) (hs : P s) : P (appendEntry e s) :=
  h.releaseEntries _ (h.seq _ (h.claimEntry e hs) (by rw [(recounted_claimEntry e s).seq_eq]))

end Local

theorem length_queueAfter (q : List Change) (hits : List (Fin 4)) (w : Bool) :
    (queueAfter q (headAt q hits w)).length ≤ q.length := by
  cases q with
  | nil => exact Nat.le_refl 0
  | cons c q =>
    unfold queueAfter headAt
    dsimp only
    split <;> simp

theorem length_giveBackCount (i : Half) (q : List Change) : (giveBackCount i q).length = q.length := by
  cases q with
  | nil => rfl
  | cons c q =>
    show (if c.id = i then c.giveBack :: q else c :: q).length = _
    split <;> rfl

namespace Local
variable {P : State → Prop} (h : Local P) {s : State}
include h

theorem commitCore (p : Plan) (hs : P s) : P (commitCore p s) := by
  have woven : ∀ (e : HistEntry), P { Machine.appendEntry e s with
      seq := { (Machine.appendEntry e s).seq with woven := (Machine.appendEntry e s).seq.woven + 1 }
      chu := { (Machine.appendEntry e s).chu.countHits (s.chu.hitsOn p) with
        queue := queueAfter (Machine.appendEntry e s).chu.queue
          (headAt s.chu.queue (s.chu.hitsOn p) (s.advance p.cursor).2) } } := by
    intro e
    have e1 : (Machine.appendEntry e s).chu = s.chu := (recounted_appendEntry e s).chu_eq
    have h1 := h.appendEntry e hs
    generalize Machine.appendEntry e s = u at e1 h1 ⊢
    refine h.chu _ (h.seq { u.seq with woven := u.seq.woven + 1 } h1 rfl) fun hb => ?_
    have hb : u.chu.queue.length ≤ 4 := hb
    rw [e1] at hb ⊢
    exact Nat.le_trans (length_queueAfter ..) hb
  unfold Machine.commitCore
  dsimp only
  split
  · exact h.release _ _ (h.moveCursor _ (woven _))
  · exact h.moveCursor _ (woven _)

end Local

/-- R155: with room in the queue an applied change goes back to the head of it. -/
theorem restoreChange_room (a : AppliedChange) {s : State} (h : s.chu.queue.length < 4) :
    restoreChange a s = raise .p .changeRestored
      (claim .queue a.slot { s with chu := { s.chu with queue := a.restored :: s.chu.queue } }) := by
  unfold restoreChange dropTail
  rw [if_pos h]

/-- R155 step 1: without room the tail `c` is dropped first. -/
theorem restoreChange_full (a : AppliedChange) {s : State} {c : Change} (h : ¬s.chu.queue.length < 4)
    (hc : s.chu.queue.getLast? = some c) :
    restoreChange a s = raise .p .changeRestored (claim .queue a.slot (raiseDropped c.id (releaseChange c
      { s with chu := { s.chu with queue := a.restored :: s.chu.queue.dropLast } }))) := by
  unfold restoreChange dropTail
  rw [if_neg h, hc]
  rfl

theorem exists_tail {q : List Change} (h : ¬q.length < 4) : ∃ c, q.getLast? = some c := by
  cases hc : q.getLast? with
  | none => rw [List.getLast?_eq_none_iff.1 hc] at h; exact absurd (by decide) h
  | some c => exact ⟨c, rfl⟩

theorem weftSound_weaveReset {s : State} (h : s.weftSound) : { s with wft := s.wft.weaveReset }.weftSound := by
  obtain ⟨h1, h2, h3, h4, h5⟩ := h
  refine ⟨h1, h2, h3, h4, fun f => ?_⟩
  show Feeder.sound ((s.wft.feeders.map fun f => { f with failures := 0 }).get f)
  rw [get_map]
  exact ⟨Nat.zero_le _, (h5 f).2⟩

namespace Local
variable {P : State → Prop} (h : Local P) {s : State}
include h

theorem restoreChange (a : AppliedChange) (hs : P s) : P (restoreChange a s) := by
  by_cases hn : s.chu.queue.length < 4
  · rw [restoreChange_room a hn]
    exact h.hooked.raise _ _ (h.claim _ _ (h.chu _ hs fun _ => hn))
  · obtain ⟨c, hc⟩ := exists_tail hn
    rw [restoreChange_full a hn hc]
    refine h.hooked.raise _ _ (h.claim _ _ (h.hooked.raise _ _ (h.link .p _ (h.release _ _ (h.chu _ hs fun hb => ?_)) id (Link.noted_detail _ _ _))))
    have hb : s.chu.queue.length ≤ 4 := hb
    rw [List.length_cons, List.length_dropLast]
    omega

theorem unwind (e : HistEntry) (hs : P s) : P (unwind e s) := by
  have hu : P (unwindChanges e s) := by
    unfold Machine.unwindChanges
    dsimp only
    refine h.chu _ (s := match e.applied with | some a => Machine.restoreChange a s | none => s) ?_ ?_
    · split
      · exact h.restoreChange _ hs
      · exact hs
    · intro hb
      split
      next i _ => exact Nat.le_trans (Nat.le_of_eq (length_giveBackCount i _)) hb
      · exact hb
  unfold Machine.unwind
  dsimp only
  generalize Machine.unwindChanges e s = u at hu ⊢
  have h1 := h.moveCursor e.cursor (h.hooked.restore e.group (h.seq { u.seq with woven := u.seq.woven - 1 } hu rfl))
  generalize Machine.moveCursor e.cursor _ = v at h1 ⊢
  exact h.releaseEntry _ (h.seq { v.seq with history := v.seq.history.dropLast } h1 rfl)

theorem latch (p : Plan) (i : List Bool) (hs : P s) : P (Machine.release .staged p.cursor.slot
    (Machine.releaseLatched s.hcc.latched (Machine.claim .latched p.cursor.slot { s with
        hcc := { s.hcc with transfer := .idle, latched := .pick p i }, xpe := { s.xpe with staging := .empty } }))) :=
  h.release _ _ (h.releaseLatched _ (h.claim _ _ (h.hooks _ _ hs (budgetSound_bus rfl rfl))))

/-- A property of the units by themselves is kept by the weaving side. -/
theorem steady : Steady P where
  toHooked := h.hooked
  grd := h.grd
  ang := h.ang
  draws := h.draws
  seq := fun q hs hq _ _ _ => h.seq q hs hq
  move := by
    intro s x hs hg hx hw
    refine h.move x hs ?_ ?_ hw
    · rcases hg with e | e | e | e | e <;> rw [e] <;> decide
    · rcases hx with e | e | e | e | e <;> rw [e] <;> decide
  intoGuard := by
    intro s x hs _ hx
    have h1 := h.ang { s.ang with stallWatch := .off, stallTimer := none } hs trackerSound_stallOff
    exact h.settle x true h1 ⟨fun _ => hx, fun _ => rfl⟩ fun _ => rfl
  leaveGuard := by
    intro s x hs hg hx
    refine h.settle x false hs ?_ ?_
    · rcases hx with e | e <;> rw [e] <;> decide
    · rcases hg with e | e <;> rw [e] <;> nofun
  chu := fun u hs hu => h.chu u hs fun hb => by
    have := congrArg List.length hu
    simp only [List.length_map] at this
    rw [this]; exact hb
  stage := fun p j hs _ _ _ => h.claim _ _ (h.xpe _ hs)
  latch := fun p i hs _ _ => h.latch p i hs
  closeReleased := fun hs _ => h.hooks _ _ hs (budgetSound_bus rfl rfl)
  commit := fun p hs _ => h.commitCore p hs
  unwind := fun e hs _ => h.unwind e hs

theorem releaseTaken (hs : P s) : P (releaseTaken s) := by
  unfold Machine.releaseTaken
  dsimp only
  split
  · have h1 : P (releaseStaged s.xpe.staging s) := by
      unfold releaseStaged; split
      · exact h.release _ _ hs
      · exact hs
    have h2 := h.releaseLatched s.hcc.latched h1
    generalize Machine.releaseLatched _ _ = u at h2 ⊢
    exact h.hcc _ h2 (budgetSound_bus rfl rfl)
  · exact hs

theorem reset (hs : P s) : P (resetWeaving s) := by
  have h0 : P (releaseProgram s) := h.releaseCursor _ (h.releaseEntries _ (h.releaseChanges _ hs))
  have h1 := h.steady.dropAll (h.steady.discardStaging (h.releaseTaken h0))
  unfold resetWeaving
  dsimp only
  generalize dropAll _ = t at h1 ⊢
  have h2 := h.seq { t.seq.weaveReset with state := t.seq.state } h1 rfl
  have h3 := h.wft t.wft.weaveReset (h.chu t.chu.weaveReset h2 fun _ => Nat.zero_le _) weftSound_weaveReset
  have h4 := h.grd { t.grd.weaveReset with stopRequest := t.grd.stopRequest } h3 fun ⟨g1, g2, _⟩ =>
    ⟨g1, g2, Nat.zero_le _, fun _ => Nat.zero_le _⟩
  have h5 := h.ang { t.ang with stallWatch := .off, stallTimer := none } (h4 rfl) trackerSound_stallOff
  exact h.steady.departed _ (h.settle .unloaded false h5 (by decide) fun _ => rfl)

/-- A property of the units by themselves is kept by the settings. -/
theorem governed : Governed P where
  toSteady := h.steady
  define := h.define
  erase := fun i hs _ => h.erase i hs
  slot := fun i f hs hf => h.slot i f hs hf.blocks hf.canonical hf.empty
  wlb := h.wlb
  hmp := h.hmp
  select := by
    intro s c hs ho _ _
    refine h.placeCursor _ c hs fun hu e _ => h.move _ hu ?_ (by decide) ?_
    · rw [e]; rcases ho with e | ⟨e, _⟩ <;> rw [e] <;> decide
    · rw [e]; rcases ho with e | ⟨e, _⟩ <;> rw [e] <;> nofun
  joinQueue := fun e hs _ hn => h.claim _ _ (h.chu _ hs fun _ => by rw [List.length_append, List.length_singleton]; exact hn)
  emptyQueue := fun hs => h.chu _ (h.releaseChanges _ hs) fun _ => Nat.zero_le _
  reset := h.reset

end Local

/-! ### After power-on reset -/

/-- The block after power-on reset in a run: the model's own fields stay (log 6). -/
def poweredOn (encz wstop : Bool) (s : State) : State :=
  { State.powerOn encz wstop with draws := s.draws, pending := s.pending }

theorem poweredOn_reset : poweredOn false false State.reset = State.reset := rfl

section
variable (z w : Bool) (s : State)

theorem trackerSound_poweredOn : (poweredOn z w s).trackerSound := by
  simp [State.trackerSound, poweredOn, State.powerOn, Ang.reset, Schedule.legal]

theorem contentsCanonical_poweredOn : (poweredOn z w s).contentsCanonical := canonical_reset

theorem slot_poweredOn (i : Fin 8) : (poweredOn z w s).slot i = Slot.reset := by
  simp [State.slot, poweredOn, State.powerOn, Fst.reset]

theorem storeAccounted_poweredOn : (poweredOn z w s).storeAccounted := by
  refine ⟨fun b i => ?_, fun i => ?_, fun i _ => ?_, ?_⟩
  · rw [slot_poweredOn]
    simp [Slot.reset, poweredOn, State.powerOn, Fst.reset]
  · simp [slot_poweredOn, Slot.reset]
  · simp [slot_poweredOn, Slot.reset]
  · simp only [slot_poweredOn, Slot.reset]; rfl

theorem harnessSound_poweredOn : (poweredOn z w s).harnessSound := by
  simp [State.harnessSound, poweredOn, State.powerOn, Weave.reset, Hmp.reset, sectionArgOk, ascending]

theorem queueBounded_poweredOn : (poweredOn z w s).queueBounded := Nat.zero_le _

theorem weftSound_poweredOn : (poweredOn z w s).weftSound := by
  simp [State.weftSound, poweredOn, State.powerOn, Wft.reset, Feeder.reset]

theorem budgetSound_poweredOn : (poweredOn z w s).budgetSound := by
  simp [State.budgetSound, poweredOn, State.powerOn, Hcc.reset]

theorem guardSound_poweredOn : (poweredOn z w s).guardSound := by
  simp [State.guardSound, poweredOn, State.powerOn, Grd.reset, Grd.isEnabled]

theorem stopRequestSound_poweredOn : (poweredOn z w s).stopRequestSound := by
  simp [State.stopRequestSound, poweredOn, State.powerOn, Grd.reset, Seq.reset]

theorem attentionSound_poweredOn : (poweredOn z w s).attentionSound := by
  intro l
  cases l <;> simp [poweredOn, State.powerOn, State.link, Link.reset]

end

/-! ### The invariants of single units -/

theorem local_trackerSound : Local State.trackerSound where
  ang := fun a hs ha => ha hs
  seq := by
    intro s q hs hq
    simpa only [State.trackerSound, hq] using hs
  move := by
    intro s x ⟨h1, h2, h3, h4, h5, h6, h7, h8⟩ _ _ hw
    refine ⟨h1, h2, h3, h4, h5, h6, h7, fun _ => ?_⟩
    by_cases hr : s.seq.state = .running
    · exact hw hr
    · exact h8 hr
  settle := by
    intro s x b ⟨h1, h2, h3, h4, h5, h6, h7, h8⟩ _ hw
    refine ⟨h1, h2, h3, h4, h5, h6, h7, fun _ => ?_⟩
    by_cases hr : s.seq.state = .running
    · exact hw hr
    · exact h8 hr

theorem local_harnessSound : Local State.harnessSound where
  wlb := fun _ hs hv => hv hs
  hmp := fun _ hs hm => hm hs

theorem local_queueBounded : Local State.queueBounded where
  chu := fun _ hs hu => hu hs

theorem local_weftSound : Local State.weftSound where
  wft := fun _ hs hw => hw hs

theorem local_budgetSound : Local State.budgetSound where
  hcc := fun _ hs hb => hb hs

theorem local_guardSound : Local State.guardSound where
  grd := fun _ hs hg _ => hg hs

theorem local_stopRequestSound : Local State.stopRequestSound where
  grd := by
    intro s g hs _ hg
    simpa only [State.stopRequestSound, hg] using hs
  seq := by
    intro s q hs hq
    simpa only [State.stopRequestSound, hq] using hs
  move := by
    intro s x hs ho hx _
    have hr : s.grd.stopRequest ≠ true := fun e => by
      rcases hs.1 e with e | e
      · exact ho.1 e
      · exact ho.2 e
    exact ⟨fun e => absurd e hr, fun e => e.elim (absurd · hx.1) (absurd · hx.2)⟩
  settle := fun _ _ _ hb _ => hb

theorem attentionSound_modLink {s : State} (l : LinkId) (f : Link → Link) (hs : s.attentionSound)
    (hf : (s.link l).attentive → (f (s.link l)).attentive) : (s.modLink l f).attentionSound := by
  intro m
  by_cases e : m = l
  · subst e
    rw [link_modLink]
    exact hf (hs m)
  · rw [link_modLink_ne s f e]
    exact hs m

theorem local_attentionSound : Local State.attentionSound where
  link := fun l f hs hf _ => attentionSound_modLink l f hs hf

theorem contentsCanonical_iff (s : State) : s.contentsCanonical ↔ ∀ i, (s.slot i).canonical := by
  refine forall_congr' fun i => ?_
  unfold Slot.canonical State.design
  cases (s.slot i).design <;> simp [Design.canonical]

theorem local_contentsCanonical : Local State.contentsCanonical where
  slot := by
    intro s i f hs _ hc _
    rw [contentsCanonical_iff] at hs ⊢
    intro j
    simp only [State.slot, slots_modSlot]
    split
    · exact hc (hs i)
    · exact hs j
  define := by
    intro s i w n map hs _ _
    rw [contentsCanonical_iff] at hs ⊢
    intro j
    simp only [State.slot, Fst.define, get_upd_eq]
    split
    · rintro d ⟨⟩
      exact canonical_fresh ..
    · exact hs j
  erase := by
    intro s i hs
    rw [contentsCanonical_iff] at hs ⊢
    intro j
    simp only [State.slot, Fst.erase, get_upd_eq]
    split
    · exact nofun
    · exact hs j

/-! ### The storage blocks -/

theorem mem_lowestFree {f : Fst} {n b : Nat} (h : b ∈ f.lowestFree n) : ∃ c : Fin 256, c.1 = b ∧ f.owner.get c = none := by
  obtain ⟨c, hc, rfl⟩ := List.mem_map.1 (List.mem_of_mem_take h)
  exact ⟨c, rfl, Option.isNone_iff_eq_none.1 (List.mem_filter.1 hc).2⟩

theorem nodup_map_val {n : Nat} {l : List (Fin n)} (h : l.Nodup) : (l.map (·.1)).Nodup :=
  List.pairwise_map.2 (h.imp fun hne e => hne (Fin.ext e))

theorem nodup_lowestFree (f : Fst) (n : Nat) : (f.lowestFree n).Nodup :=
  (nodup_map_val ((List.nodup_finRange 256).filter _)).sublist (List.take_sublist _ _)

/-- The blocks of a slot, read off the owner map. -/
theorem length_blocks {s : State} (h : s.storeAccounted) (i : Fin 8) :
    (s.slot i).blocks.length = (List.finRange 256).countP fun b => decide (s.fst.owner.get b = some i) := by
  obtain ⟨h1, h2, -, -⟩ := h
  have hp : (s.slot i).blocks.Perm (((List.finRange 256).filter fun b => decide (s.fst.owner.get b = some i)).map (·.1)) := by
    refine (List.perm_ext_iff_of_nodup (h2 i).1 (nodup_map_val ((List.nodup_finRange 256).filter _))).2 fun b => ?_
    simp only [List.mem_map, List.mem_filter, List.mem_finRange, true_and, decide_eq_true_eq]
    constructor
    · intro hb
      exact ⟨⟨b, (h2 i).2 b hb⟩, (h1 ⟨b, (h2 i).2 b hb⟩ i).2 hb, rfl⟩
    · rintro ⟨c, hc, rfl⟩
      exact (h1 c i).1 hc
  rw [hp.length_eq, List.length_map, List.countP_eq_length_filter]

theorem sum_owners (o : Option (Fin 8)) :
    ((List.finRange 8).map fun i => if o = some i then 1 else 0).sum + (if o = none then 1 else 0) = 1 := by
  cases o with
  | none => decide
  | some j => revert j; decide

theorem sum_map_add {α : Type} (f g : α → Nat) (l : List α) :
    (l.map fun a => f a + g a).sum = (l.map f).sum + (l.map g).sum := by
  induction l with
  | nil => rfl
  | cons a l ih =>
    simp only [List.map_cons, List.sum_cons, ih]
    omega

/-- Every block of a list is free or has one owner. -/
theorem sum_countP_owners {α : Type} (f : α → Option (Fin 8)) (l : List α) :
    ((List.finRange 8).map fun i => l.countP fun b => decide (f b = some i)).sum + l.countP (fun b => decide (f b = none)) =
      l.length := by
  induction l with
  | nil => rfl
  | cons b l ih =>
    have ho := sum_owners (f b)
    simp only [List.countP_cons, decide_eq_true_eq, List.length_cons, sum_map_add]
    omega

/-- R19: the free count is the number of blocks without an owner. -/
theorem free_eq {s : State} (h : s.storeAccounted) :
    s.fst.free = (List.finRange 256).countP fun b => decide (s.fst.owner.get b = none) := by
  have hs := sum_countP_owners s.fst.owner.get (List.finRange 256)
  have hl := h.2.2.2
  simp only [length_blocks h] at hl
  simp only [List.length_finRange] at hs
  omega

theorem length_lowestFree {s : State} (h : s.storeAccounted) {n : Nat} (hn : n ≤ s.fst.free) :
    (s.fst.lowestFree n).length = n := by
  rw [free_eq h, List.countP_eq_length_filter] at hn
  have he : (fun b => decide (s.fst.owner.get b = none)) = fun b => (s.fst.owner.get b).isNone := by
    funext b; cases s.fst.owner.get b <;> rfl
  rw [he] at hn
  rw [Fst.lowestFree, List.length_take, List.length_map]
  exact Nat.min_eq_left hn

/-- A list without repetitions, the value of one member replaced. -/
theorem sum_map_replaced {α : Type} [DecidableEq α] {i : α} (g : α → Nat) (x : Nat) {l : List α} (hl : l.Nodup) (hi : i ∈ l) :
    (l.map fun j => if j = i then x else g j).sum + g i = (l.map g).sum + x := by
  induction l with
  | nil => exact absurd hi List.not_mem_nil
  | cons a l ih =>
    obtain ⟨ha, hl⟩ := List.nodup_cons.1 hl
    rw [List.map_cons, List.map_cons, List.sum_cons, List.sum_cons]
    by_cases e : a = i
    · subst e
      have kept : l.map (fun j => if j = a then x else g j) = l.map g :=
        List.map_congr_left fun j hj => if_neg fun hja : j = a => ha (hja ▸ hj)
      rw [if_pos rfl, kept]
      omega
    · have := ih hl ((List.mem_cons.1 hi).resolve_left fun k => e k.symm)
      rw [if_neg e]
      omega

theorem sum_replaced (i : Fin 8) (g : Fin 8 → Nat) (x : Nat) :
    ((List.finRange 8).map fun j => if j = i then x else g j).sum + g i = ((List.finRange 8).map g).sum + x := by
  exact sum_map_replaced g x (List.nodup_finRange 8) (List.mem_finRange i)

theorem owner_setOwner (f : Fst) (l : List Nat) (o : Option (Fin 8)) (b : Fin 256) :
    (f.setOwner l o).get b = if b.1 ∈ l then o else f.owner.get b := by
  rw [Fst.setOwner, get_ofFn]

/-- One slot gets new contents and blocks, and the owner map and the free count follow. -/
theorem storeAccounted_upd {s : State} {i : Fin 8} {x : Slot} {o : Vector (Option (Fin 8)) 256} {n : Nat}
    (h : s.storeAccounted) (hi : ∀ b, o.get b = some i ↔ b.1 ∈ x.blocks)
    (hj : ∀ b j, j ≠ i → (o.get b = some j ↔ s.fst.owner.get b = some j))
    (hx : x.blocks.Nodup ∧ ∀ b ∈ x.blocks, b < 256) (he : x.state = .empty → x.blocks = [])
    (hn : n + x.blocks.length = s.fst.free + (s.slot i).blocks.length) :
    { s with fst := ⟨upd s.fst.slots i x, o, n⟩ }.storeAccounted := by
  obtain ⟨h1, h2, h3, h4⟩ := h
  have hs : ∀ j, ({ s with fst := ⟨upd s.fst.slots i x, o, n⟩ } : State).slot j = if j = i then x else s.slot j :=
    fun j => by simp only [State.slot, get_upd_eq]
  refine ⟨fun b j => ?_, fun j => ?_, fun j => ?_, ?_⟩
  · rw [hs]
    split
    next e => rw [e]; exact hi b
    next e => exact (hj b j e).trans (h1 b j)
  · rw [hs]
    split
    · exact hx
    · exact h2 j
  · rw [hs]
    split
    · exact he
    · exact h3 j
  · have hsum := sum_replaced i (fun j => (s.slot j).blocks.length) x.blocks.length
    have hl : (fun j => (({ s with fst := ⟨upd s.fst.slots i x, o, n⟩ } : State).slot j).blocks.length) =
        fun j => if j = i then x.blocks.length else (s.slot j).blocks.length := by
      funext j; rw [hs]; split <;> rfl
    rw [hl]
    show n + _ = 256
    omega

/-- R22: the blocks of a new design were free. -/
theorem storeAccounted_define {s : State} {i : Fin 8} (w n : Nat) (map : Vector Nat 16) (h : s.storeAccounted)
    (he : (s.slot i).state = .empty) (hn : blocksNeeded w n ≤ s.fst.free) :
    { s with fst := s.fst.define i w n map }.storeAccounted := by
  have hold := h.2.2.1 i he
  have hfree : ∀ b : Fin 256, b.1 ∈ s.fst.lowestFree (blocksNeeded w n) → s.fst.owner.get b = none := fun b hb => by
    obtain ⟨c, hc, ho⟩ := mem_lowestFree hb
    rw [← Fin.ext hc]; exact ho
  refine storeAccounted_upd h (fun b => ?_) (fun b j hj => ?_) ⟨nodup_lowestFree .., fun b hb => ?_⟩ nofun ?_
  · rw [owner_setOwner]
    split
    next hb => simp [hb]
    next hb =>
      have : s.fst.owner.get b ≠ some i := fun ho => by rw [h.1, hold] at ho; cases ho
      simp [hb, this]
  · rw [owner_setOwner]
    split
    next hb => simp [hfree b hb, Ne.symm hj]
    · exact Iff.rfl
  · obtain ⟨c, rfl, -⟩ := mem_lowestFree hb
    exact c.2
  · show s.fst.free - blocksNeeded w n + (s.fst.lowestFree (blocksNeeded w n)).length = _
    rw [length_lowestFree h hn, hold, List.length_nil]
    omega

/-- R29: the blocks of an erased design are free again. -/
theorem storeAccounted_erase {s : State} (i : Fin 8) (h : s.storeAccounted) :
    { s with fst := s.fst.erase i }.storeAccounted := by
  have hi : ∀ b : Fin 256, b.1 ∈ (s.fst.slots.get i).blocks ↔ s.fst.owner.get b = some i := fun b => (h.1 b i).symm
  refine storeAccounted_upd h (fun b => ?_) (fun b j hj => ?_) (by simp) (fun _ => rfl) rfl
  · rw [owner_setOwner]
    split
    · simp
    next hb => simp [mt (hi b).2 hb]
  · rw [owner_setOwner]
    split
    next hb => simp [(hi b).1 hb, Ne.symm hj]
    · exact Iff.rfl

theorem local_storeAccounted : Local State.storeAccounted where
  slot := by
    intro s i f hs hb _ he
    refine storeAccounted_upd hs (fun b => ?_) (fun _ _ _ => Iff.rfl) ?_ (fun hx => ?_) ?_
    · show _ ↔ b.1 ∈ (f (s.slot i)).blocks
      rw [hb]; exact hs.1 b i
    · show (f (s.slot i)).blocks.Nodup ∧ ∀ b ∈ (f (s.slot i)).blocks, b < 256
      rw [hb]; exact hs.2.1 i
    · show (f (s.slot i)).blocks = []
      rw [hb]; exact hs.2.2.1 i (he hx)
    · show s.fst.free + (f (s.slot i)).blocks.length = _
      rw [hb]
  define := fun _ w n map hs he hn => storeAccounted_define w n map hs he hn
  erase := fun i hs => storeAccounted_erase i hs

/-! ### The commands -/

theorem commanded_trackerSound : Commanded State.trackerSound where
  toGoverned := local_trackerSound.governed
  powerOn := fun z w _ => trackerSound_poweredOn z w _

theorem commanded_harnessSound : Commanded State.harnessSound where
  toGoverned := local_harnessSound.governed
  powerOn := fun z w _ => harnessSound_poweredOn z w _

theorem commanded_queueBounded : Commanded State.queueBounded where
  toGoverned := local_queueBounded.governed
  powerOn := fun z w _ => queueBounded_poweredOn z w _

theorem commanded_weftSound : Commanded State.weftSound where
  toGoverned := local_weftSound.governed
  powerOn := fun z w _ => weftSound_poweredOn z w _

theorem commanded_budgetSound : Commanded State.budgetSound where
  toGoverned := local_budgetSound.governed
  powerOn := fun z w _ => budgetSound_poweredOn z w _

theorem commanded_guardSound : Commanded State.guardSound where
  toGoverned := local_guardSound.governed
  powerOn := fun z w _ => guardSound_poweredOn z w _

theorem commanded_stopRequestSound : Commanded State.stopRequestSound where
  toGoverned := local_stopRequestSound.governed
  powerOn := fun z w _ => stopRequestSound_poweredOn z w _

theorem commanded_contentsCanonical : Commanded State.contentsCanonical where
  toGoverned := local_contentsCanonical.governed
  powerOn := fun z w _ => contentsCanonical_poweredOn z w _

theorem commanded_storeAccounted : Commanded State.storeAccounted where
  toGoverned := local_storeAccounted.governed
  powerOn := fun z w _ => storeAccounted_poweredOn z w _

theorem commanded_attentionSound : Commanded State.attentionSound where
  toGoverned := local_attentionSound.governed
  receiver := fun l f hs hf => attentionSound_modLink l f hs hf
  powerOn := fun z w _ => attentionSound_poweredOn z w _

/-! ### The obligations -/

/-- Settles O4, by the induction over elementary updates (`Local.governed`). -/
theorem stepKeepsTrackerSound : Obligations.StepKeepsTrackerSound :=
  fun _ _ => commanded_trackerSound.step

/-- Settles O5. -/
theorem stepKeepsContentsCanonical : Obligations.StepKeepsContentsCanonical :=
  fun _ _ => commanded_contentsCanonical.step

/-- Settles O6: a definition takes free blocks (`storeAccounted_define`), an erasure gives its own back
(`storeAccounted_erase`). -/
theorem stepKeepsStoreAccounted : Obligations.StepKeepsStoreAccounted :=
  fun _ _ => commanded_storeAccounted.step

/-- Settles O7. -/
theorem stepKeepsHarnessSound : Obligations.StepKeepsHarnessSound :=
  fun _ _ => commanded_harnessSound.step

/-- Settles O9. -/
theorem stepKeepsCountersBounded : Obligations.StepKeepsCountersBounded :=
  fun _ _ ht => ⟨fun hs => commanded_queueBounded.step hs ht, fun hs => commanded_weftSound.step hs ht,
    fun hs => commanded_budgetSound.step hs ht⟩

/-- Settles O10. -/
theorem stepKeepsGuardSound : Obligations.StepKeepsGuardSound :=
  fun _ _ => commanded_guardSound.step

/-- Settles O11. -/
theorem stepKeepsStopRequestSound : Obligations.StepKeepsStopRequestSound :=
  fun _ _ => commanded_stopRequestSound.step

/-- Settles O12. -/
theorem stepKeepsAttentionSound : Obligations.StepKeepsAttentionSound :=
  fun _ _ => commanded_attentionSound.step

end Sys2Proof.Machine
end

section
/-! PROOFS. The cursor and the history (O8): what each operation that sets them leaves of SEQ, and the run of serials that
they keep. -/

namespace Sys2Proof.Machine

/-! ### SEQ after the operations on the program -/

theorem moveCursor_seq (c : Cursor) (s : State) :
    (moveCursor c s).seq = { s.seq with cursor := some c, serial := c.serial } := by
  unfold moveCursor
  dsimp only
  split
  · exact (recounted_placeCursor s.seq.state c s).seq_eq
  · rw [discardStaging_seq]
    exact (recounted_placeCursor s.seq.state c s).seq_eq

/-- R58, R154 step 2: the cursor after a commit follows the serial of the committed pick. -/
theorem advance_serial (s : State) (c : Cursor) : (s.advance c).1.serial = c.serial + 1 := by
  unfold State.advance
  dsimp only
  split
  · rfl
  · split <;> rfl

/-- R152, R153: what CHU decides at the commit of the pick of plan `p`. -/
def State.headOutcome (s : State) (p : Plan) : HeadOutcome :=
  headAt s.chu.queue (s.chu.hitsOn p) (s.advance p.cursor).2

/-- The change that the commit of the pick of plan `p` applies. -/
def State.appliedAt (s : State) (p : Plan) : Option Change :=
  if (s.headOutcome p).applies then (s.headOutcome p).head else none

/-- R130: the history entry of the commit of the pick of plan `p`. -/
def State.entryAt (s : State) (p : Plan) : HistEntry :=
  entryOf p (s.chu.hitsOn p) (s.headOutcome p).counted ((s.appliedAt p).map (·.record))

/-- R128 steps 1 and 2: the entry is appended, the comparators counted, the head taken. -/
def recorded (p : Plan) (s : State) : State :=
  let t := appendEntry (s.entryAt p) s
  { t with
    seq := { t.seq with woven := t.seq.woven + 1 }
    chu := { t.chu.countHits (s.chu.hitsOn p) with queue := queueAfter t.chu.queue (s.headOutcome p) } }

theorem commitCore_eq (p : Plan) (s : State) : commitCore p s =
    match s.appliedAt p with
    | some c => releaseChange c (moveCursor ((recorded p s).target c p.cursor) (recorded p s))
    | none => moveCursor (s.advance p.cursor).1 (recorded p s) := by
  unfold commitCore recorded State.entryAt State.appliedAt State.headOutcome
  rfl

theorem commitPlan_eq (p : Plan) (s : State) : commitPlan p s =
    commitNotices (s.chu.hitsOn p) (s.appliedAt p).isSome
      { commitCore p s with grd := (commitCore p s).grd.commit } := rfl

theorem recorded_seq (p : Plan) (s : State) :
    (recorded p s).seq = { s.seq.joined (s.entryAt p) with woven := s.seq.woven + 1 } := by
  unfold recorded
  simp only [(recounted_appendEntry ..).seq_eq]
  rfl

theorem commitCore_seq (p : Plan) (s : State) : ∃ c : Cursor, c.serial = p.cursor.serial + 1 ∧
    (commitCore p s).seq = { s.seq.joined (s.entryAt p) with
      woven := s.seq.woven + 1, cursor := some c, serial := c.serial } := by
  rw [commitCore_eq]
  split
  next c _ =>
    refine ⟨(recorded p s).target c p.cursor, rfl, ?_⟩
    rw [releaseChange, (recounted_release ..).seq_eq, moveCursor_seq, recorded_seq]
  · exact ⟨_, advance_serial s p.cursor, by rw [moveCursor_seq, recorded_seq]⟩

@[simp] theorem restoreChange_seq (a : AppliedChange) (s : State) : (restoreChange a s).seq = s.seq := by
  by_cases hn : s.chu.queue.length < 4
  · rw [restoreChange_room a hn, raise_seq, (recounted_claim ..).seq_eq]
  · obtain ⟨c, hc⟩ := exists_tail hn
    rw [restoreChange_full a hn hc, raise_seq, (recounted_claim ..).seq_eq]
    simp [raiseDropped, releaseChange]

@[simp] theorem unwindChanges_seq (e : HistEntry) (s : State) : (unwindChanges e s).seq = s.seq := by
  unfold unwindChanges
  cases e.applied with
  | none => rfl
  | some a => exact restoreChange_seq a s

theorem unwind_seq (e : HistEntry) (s : State) : (unwind e s).seq = { s.seq with
    woven := s.seq.woven - 1, cursor := some e.cursor, serial := e.cursor.serial, history := s.seq.history.dropLast } := by
  unfold unwind
  dsimp only
  rw [(recounted_releaseEntry ..).seq_eq]
  simp only [moveCursor_seq, unwindChanges_seq]

theorem placeCursor_seq (x : SeqState) (c : Cursor) (s : State) :
    (placeCursor x c s).seq = { s.seq with cursor := some c, serial := c.serial, state := x } :=
  (recounted_placeCursor x c s).seq_eq

theorem resetWeaving_seq (s : State) : (resetWeaving s).seq = s.seq.weaveReset := by
  unfold resetWeaving departed
  dsimp only
  split <;> simp [stallOff, releaseTaken_seq, (recounted_releaseProgram s).seq_eq]

/-! ### The run of serials -/

/-- Each serial is one more than the serial before it. -/
def Runs : List Half → Prop
  | a :: b :: l => b = a + 1 ∧ Runs (b :: l)
  | _ => True

theorem Runs.tail : ∀ {l : List Half}, Runs l → Runs l.tail
  | [], h => h
  | [_], _ => trivial
  | _ :: _ :: _, h => h.2

theorem Runs.drop {l : List Half} (h : Runs l) : ∀ n, Runs (l.drop n)
  | 0 => h
  | n + 1 => by
    rw [← List.tail_drop]
    exact (h.drop n).tail

theorem runs_concat {m : Half} : ∀ {l : List Half}, Runs (l ++ [m]) ↔ Runs l ∧ ∀ a, l.getLast? = some a → m = a + 1
  | [] => ⟨fun _ => ⟨trivial, nofun⟩, fun _ => trivial⟩
  | [a] => ⟨fun h => ⟨trivial, by rintro _ ⟨⟩; exact h.1⟩, fun h => ⟨h.2 a rfl, trivial⟩⟩
  | a :: b :: l => by
    have ih := runs_concat (m := m) (l := b :: l)
    rw [List.getLast?_cons_cons]
    show b = a + 1 ∧ Runs (b :: l ++ [m]) ↔ (b = a + 1 ∧ Runs (b :: l)) ∧ _
    rw [ih, and_assoc]

theorem dropLast_append_of_getLast? {α : Type} {l : List α} {a : α} (h : l.getLast? = some a) : l.dropLast ++ [a] = l := by
  obtain ⟨k, rfl⟩ := List.getLast?_eq_some_iff.1 h
  rw [List.dropLast_concat]

/-- R55, R56, R129: cursor and history, as the serials tell them. -/
structure Consecutive (x : SeqState) (c : Option Cursor) (n : Half) (l : List Half) : Prop where
  present : c = none ↔ x = .unloaded
  length : l.length ≤ 64
  chain : Runs l
  empty : c = none → l = []
  serial : ∀ k, c = some k → n = k.serial ∧ ∀ m, l.getLast? = some m → k.serial = m + 1

theorem chained_iff : ∀ l : List HistEntry, chained l = true ↔ Runs (l.map (·.cursor.serial))
  | [] => ⟨fun _ => trivial, fun _ => rfl⟩
  | [_] => ⟨fun _ => trivial, fun _ => rfl⟩
  | a :: b :: l => by
    have ih := chained_iff (b :: l)
    simp only [List.map_cons] at ih
    simp only [chained, Bool.and_eq_true, decide_eq_true_eq]
    rw [ih, List.map_cons, List.map_cons]
    exact Iff.rfl

def Seq.serials (q : Seq) : List Half := q.history.map (·.cursor.serial)

theorem consecutive_iff (s : State) :
    s.cursorPresent ∧ s.historySound ↔ Consecutive s.seq.state s.seq.cursor s.seq.serial s.seq.serials := by
  have hlast : ∀ (c : Cursor), (∀ m, s.seq.serials.getLast? = some m → c.serial = m + 1) ↔
      ∀ e, s.seq.history.getLast? = some e → c.serial = e.serial + 1 := by
    intro c
    unfold Seq.serials HistEntry.serial
    rw [List.getLast?_map]
    cases s.seq.history.getLast? <;> simp
  have hnil : s.seq.serials = [] ↔ s.seq.history = [] := List.map_eq_nil_iff
  have hlen : s.seq.serials.length = s.seq.history.length := List.length_map ..
  constructor
  · rintro ⟨hp, h1, h2, h3, h4⟩
    exact ⟨hp, hlen ▸ h1, (chained_iff _).1 h2, fun hc => hnil.2 (h3 hc), fun k hk => ⟨(h4 k hk).1, (hlast k).2 (h4 k hk).2⟩⟩
  · rintro ⟨hp, h1, h2, h3, h4⟩
    exact ⟨hp, hlen ▸ h1, (chained_iff _).2 h2, fun hc => hnil.1 (h3 hc), fun k hk => ⟨(h4 k hk).1, (hlast k).1 (h4 k hk).2⟩⟩

/-- The invariant of O8, of SEQ alone. -/
def State.programSound (s : State) : Prop := Consecutive s.seq.state s.seq.cursor s.seq.serial s.seq.serials

theorem serials_of_program {q r : Seq} (h : q.program = r.program) : q.serials = r.serials := by
  have := congrArg (List.map fun x : Cursor × Option AppliedChange => x.1.serial) h
  simpa [Seq.program, Seq.serials, Function.comp_def] using this

namespace Consecutive
variable {x : SeqState} {c : Option Cursor} {n : Half} {l : List Half}

/-- A move that does not load or unload. -/
theorem move (h : Consecutive x c n l) {y : SeqState} (hx : x ≠ .unloaded) (hy : y ≠ .unloaded) : Consecutive y c n l :=
  ⟨⟨fun hc => absurd (h.present.1 hc) hx, fun e => absurd e hy⟩, h.length, h.chain, h.empty, h.serial⟩

/-- R129: an entry for the cursor pick joins, and the cursor goes one serial on. -/
theorem join (h : Consecutive x c n l) {k : Cursor} (hc : c = some k) {d : Cursor} (hd : d.serial = k.serial + 1) :
    Consecutive x (some d) d.serial ((l ++ [k.serial]).drop ((l ++ [k.serial]).length - 64)) := by
  have hne : (l ++ [k.serial]).length - 64 < (l ++ [k.serial]).length := by
    rw [List.length_append, List.length_singleton]
    omega
  refine ⟨⟨nofun, fun e => ?_⟩, by rw [List.length_drop]; omega, ?_, nofun, ?_⟩
  · rw [h.present.2 e] at hc; cases hc
  · exact (runs_concat.2 ⟨h.chain, (h.serial k hc).2⟩).drop _
  · rintro _ ⟨⟩
    refine ⟨rfl, fun m hm => ?_⟩
    rw [List.getLast?_drop, if_neg (Nat.not_le.2 hne)] at hm
    simp only [List.getLast?_append, List.getLast?_singleton, Option.some_or, Option.some.injEq] at hm
    rw [hd, hm]

/-- R135: the cursor goes back to the newest entry, which leaves. -/
theorem back (h : Consecutive x c n l) {d : Cursor} (hl : l.getLast? = some d.serial) :
    Consecutive x (some d) d.serial l.dropLast := by
  have hsplit : l = l.dropLast ++ [d.serial] := (dropLast_append_of_getLast? hl).symm
  have hch := h.chain
  rw [hsplit, runs_concat] at hch
  refine ⟨⟨nofun, fun e => ?_⟩, ?_, ?_, nofun, ?_⟩
  · rw [h.empty (h.present.2 e)] at hl; cases hl
  · rw [List.length_dropLast]; have := h.length; omega
  · exact hch.1
  · rintro _ ⟨⟩
    exact ⟨rfl, hch.2⟩

end Consecutive

theorem serials_joined (q : Seq) (e : HistEntry) : (q.joined e).serials =
    (q.serials ++ [e.cursor.serial]).drop ((q.serials ++ [e.cursor.serial]).length - 64) := by
  simp [Seq.joined, Seq.serials, List.map_drop]

theorem pendingPlan_cursor {s : State} {p : Plan} (h : s.pendingPlan = some p) : s.seq.cursor = some p.cursor := by
  unfold State.pendingPlan at h
  split at h
  · split at h
    next hc => injection h with h; subst h; exact hc.2
    · cases h
  · cases h

theorem SeqState.loaded_of_guarded {x : SeqState} (h : x.guarded) : x ≠ .unloaded := by
  rcases h with e | e | e | e | e <;> rw [e] <;> decide

theorem SeqState.loaded_of_inGuard {x : SeqState} (h : x = .guard ∨ x = .halted) : x ≠ .unloaded := by
  rcases h with e | e <;> rw [e] <;> decide

theorem SeqState.loaded_of_left {x : SeqState} (h : x = .ready ∨ x = .presenting) : x ≠ .unloaded := by
  rcases h with e | e <;> rw [e] <;> decide

theorem governed_programSound : Governed State.programSound where
  seq := by
    intro s q hs h1 h2 h3 h4
    show Consecutive q.state q.cursor q.serial q.serials
    rw [h1, h2, h3, serials_of_program h4]
    exact hs
  move := fun _ hs hg hx _ => hs.move (SeqState.loaded_of_guarded hg) (SeqState.loaded_of_guarded hx)
  intoGuard := fun _ hs hg hx =>
    hs.move (SeqState.loaded_of_guarded hg) (SeqState.loaded_of_inGuard hx)
  leaveGuard := fun _ hs hg hx =>
    hs.move (SeqState.loaded_of_inGuard hg) (SeqState.loaded_of_left hx)
  unstage := by
    intro s p hs _ _
    unfold State.programSound
    rw [(recounted_release ..).seq_eq]
    exact hs
  stage := by
    intro s p j hs _ _ _
    unfold State.programSound
    rw [(recounted_claim ..).seq_eq]
    exact hs
  unlatch := by
    intro s p x hs _ _ _ _ _
    unfold State.programSound
    rw [(recounted_release ..).seq_eq]
    exact hs
  latch := by
    intro s p i hs _ _
    unfold State.programSound
    rw [(recounted_release ..).seq_eq, (recounted_releaseLatched ..).seq_eq, (recounted_claim ..).seq_eq]
    exact hs
  closeReleased := fun hs _ => hs
  commit := by
    intro s p hs hp
    obtain ⟨c, hc, e⟩ := commitCore_seq p s
    have hj := Consecutive.join hs (pendingPlan_cursor hp) hc
    have hl := serials_joined s.seq (s.entryAt p)
    unfold State.programSound
    rw [e]
    show Consecutive s.seq.state (some c) c.serial (s.seq.joined (s.entryAt p)).serials
    rw [hl]
    exact hj
  unwind := by
    intro s e hs he
    have hb := Consecutive.back hs (d := e.cursor) (by rw [Seq.serials, List.getLast?_map, he]; rfl)
    have hl : (s.seq.history.dropLast.map (·.cursor.serial)) = s.seq.serials.dropLast := List.map_dropLast ..
    unfold State.programSound
    rw [unwind_seq]
    show Consecutive s.seq.state (some e.cursor) e.cursor.serial (s.seq.history.dropLast.map (·.cursor.serial))
    rw [hl]
    exact hb
  define := fun _ _ _ _ hs _ _ => hs
  erase := fun _ hs _ => hs
  slot := fun _ _ hs _ => hs
  select := by
    intro s c hs ho _ hc
    unfold State.programSound
    rw [placeCursor_seq]
    have hser : ∀ m, s.seq.serials.getLast? = some m → c.serial = m + 1 := by
      intro m hm
      cases hk : s.seq.cursor with
      | none => rw [hs.empty hk] at hm; cases hm
      | some k =>
        obtain ⟨h1, h2⟩ := hs.serial k hk
        rw [hc, h1]; exact h2 m hm
    exact ⟨⟨nofun, nofun⟩, hs.length, hs.chain, nofun, by rintro _ ⟨⟩; exact ⟨rfl, hser⟩⟩
  joinQueue := by
    intro s e hs _ _
    unfold State.programSound joinQueue
    rw [(recounted_claim ..).seq_eq]
    exact hs
  emptyQueue := by
    intro s hs
    unfold State.programSound emptyQueue
    dsimp only
    rw [(recounted_releaseChanges ..).seq_eq]
    exact hs
  reset := by
    intro s _
    unfold State.programSound
    rw [resetWeaving_seq]
    exact ⟨⟨fun _ => rfl, fun _ => rfl⟩, Nat.zero_le _, trivial, fun _ => rfl, nofun⟩

theorem commanded_programSound : Commanded State.programSound where
  toGoverned := governed_programSound
  powerOn := fun _ _ _ => ⟨⟨fun _ => rfl, fun _ => rfl⟩, Nat.zero_le _, trivial, fun _ => rfl, nofun⟩

/-- Settles O8: the serials run on (`Consecutive.join` at a commit, `Consecutive.back` at an unwind). -/
theorem stepKeepsHistorySound : Obligations.StepKeepsHistorySound := fun s t hp hh ht =>
  (consecutive_iff t).2 (commanded_programSound.step ((consecutive_iff s).1 ⟨hp, hh⟩) ht)

end Sys2Proof.Machine
end

section
/-! PROOFS. The holds (O13): what claims and releases count, and how the records of the blocks keep in step with them. -/

namespace Sys2Proof.Machine

/-! ### Reference counts -/

/-- The reference count of one reason. -/
def Refs.count (r : Refs) : HoldReason → Nat
  | .cursor => r.cursor
  | .staged => r.staged
  | .latched => r.latched
  | .history => r.history
  | .queue => r.queue

theorem Refs.count_modify (f : Nat → Nat) (r : Refs) (k m : HoldReason) :
    (r.modify f k).count m = if k = m then f (r.count m) else r.count m := by
  cases k <;> cases m <;> rfl

theorem Refs.ext_count {a b : Refs} (h : ∀ k, a.count k = b.count k) : a = b := by
  cases a; cases b
  exact congr (congr (congr (congr (congrArg Refs.mk (h .cursor)) (h .staged)) (h .latched)) (h .history)) (h .queue)

theorem Slot.held_iff (x : Slot) : x.held = true ↔ ∃ k, 0 < x.refs.count k := by
  constructor
  · intro h
    simp only [Slot.held, Bool.or_eq_true, decide_eq_true_eq] at h
    rcases h with (((h | h) | h) | h) | h
    · exact ⟨.cursor, h⟩
    · exact ⟨.staged, h⟩
    · exact ⟨.latched, h⟩
    · exact ⟨.history, h⟩
    · exact ⟨.queue, h⟩
  · rintro ⟨k, hk⟩
    simp only [Slot.held, Bool.or_eq_true, decide_eq_true_eq]
    cases k with
    | cursor => exact .inl (.inl (.inl (.inl hk)))
    | staged => exact .inl (.inl (.inl (.inr hk)))
    | latched => exact .inl (.inl (.inr hk))
    | history => exact .inl (.inr hk)
    | queue => exact .inr hk

/-- The count of reason `k` for slot `i`. -/
def State.refCount (s : State) (i : Fin 8) (k : HoldReason) : Nat := (s.slot i).refs.count k

theorem refCount_claim (r k : HoldReason) (i j : Fin 8) (s : State) :
    (claim r j s).refCount i k = s.refCount i k + if r = k ∧ j = i then 1 else 0 := by
  simp only [State.refCount, slot_claim]
  split
  next h =>
    subst h
    simp only [Refs.count_modify, and_true]
    split <;> rfl
  next h => simp [Ne.symm h]

theorem refCount_release (r k : HoldReason) (i j : Fin 8) (s : State) :
    (release r j s).refCount i k = s.refCount i k - if r = k ∧ j = i then 1 else 0 := by
  simp only [State.refCount, slot_release]
  split
  next h =>
    subst h
    simp only [Refs.count_modify, and_true]
    split <;> rfl
  next h => simp [Ne.symm h]

/-- How often a cursor record names a slot. -/
def cursorNaming (i : Fin 8) : Option Cursor → Nat
  | some c => if c.slot = i then 1 else 0
  | none => 0

/-- How often the changes of a queue name a slot. -/
def queueNaming (i : Fin 8) (q : List Change) : Nat := (q.filter fun c => decide (c.slot = i)).length

/-- How often the entries of a history name a slot. -/
def historyNaming (i : Fin 8) (h : List HistEntry) : Nat := (h.map (HistEntry.naming i)).sum

theorem queueNaming_cons (i : Fin 8) (c : Change) (q : List Change) :
    queueNaming i (c :: q) = (if c.slot = i then 1 else 0) + queueNaming i q := by
  unfold queueNaming
  rw [List.filter_cons]
  by_cases h : c.slot = i <;> simp [h, Nat.add_comm]

theorem queueNaming_append (i : Fin 8) (q r : List Change) : queueNaming i (q ++ r) = queueNaming i q + queueNaming i r := by
  simp [queueNaming]

theorem queueNaming_congr (i : Fin 8) {q r : List Change} (h : q.map (·.slot) = r.map (·.slot)) :
    queueNaming i q = queueNaming i r := by
  have e : ∀ l : List Change, queueNaming i l = ((l.map (·.slot)).filter fun x => decide (x = i)).length := fun l => by
    rw [queueNaming, List.filter_map, List.length_map]; rfl
  rw [e, e, h]

theorem historyNaming_append (i : Fin 8) (a b : List HistEntry) :
    historyNaming i (a ++ b) = historyNaming i a + historyNaming i b := by
  simp [historyNaming]

theorem historyNaming_congr (i : Fin 8) {q r : Seq} (h : q.program = r.program) :
    historyNaming i q.history = historyNaming i r.history := by
  have e : ∀ l : List HistEntry, historyNaming i l = ((l.map fun e => (e.cursor, e.applied)).map fun x =>
      (if x.1.slot = i then 1 else 0) + match x.2 with | some a => if a.slot = i then 1 else 0 | none => 0).sum := fun l => by
    rw [List.map_map]; rfl
  rw [e, e, show q.history.map (fun e => (e.cursor, e.applied)) = r.history.map fun e => (e.cursor, e.applied) from h]

/-! ### What the composite claims and releases count -/

theorem refCount_releaseCursor (c : Option Cursor) (i : Fin 8) (k : HoldReason) (s : State) :
    (releaseCursor c s).refCount i k = s.refCount i k - if k = .cursor then cursorNaming i c else 0 := by
  cases c with
  | none => simp [releaseCursor, cursorNaming]
  | some c =>
    simp only [releaseCursor, refCount_release, cursorNaming]
    cases k <;> simp

theorem refCount_releaseLatched (l : Latched) (i : Fin 8) (k : HoldReason) (s : State) :
    (releaseLatched l s).refCount i k = s.refCount i k - if k = .latched then planNaming i l.plan else 0 := by
  unfold releaseLatched
  cases l.plan with
  | none => simp [planNaming]
  | some p =>
    simp only [refCount_release, planNaming]
    cases k <;> simp

theorem refCount_releaseStaged (x : Staging) (i : Fin 8) (k : HoldReason) (s : State) :
    (releaseStaged x s).refCount i k = s.refCount i k - if k = .staged then planNaming i x.plan else 0 := by
  unfold releaseStaged
  cases x.plan with
  | none => simp [planNaming]
  | some p =>
    simp only [refCount_release, planNaming]
    cases k <;> simp

theorem refCount_claimEntry (e : HistEntry) (i : Fin 8) (k : HoldReason) (s : State) :
    (claimEntry e s).refCount i k = s.refCount i k + if k = .history then e.naming i else 0 := by
  unfold claimEntry HistEntry.naming
  cases e.applied with
  | none => simp only [refCount_claim]; cases k <;> simp
  | some a => simp only [refCount_claim]; cases k <;> simp [Nat.add_assoc]

theorem refCount_releaseEntry (e : HistEntry) (i : Fin 8) (k : HoldReason) (s : State) :
    (releaseEntry e s).refCount i k = s.refCount i k - if k = .history then e.naming i else 0 := by
  unfold releaseEntry HistEntry.naming
  cases e.applied with
  | none => simp only [refCount_release]; cases k <;> simp
  | some a => simp only [refCount_release]; cases k <;> simp [Nat.sub_sub]

theorem refCount_releaseEntries (i : Fin 8) (k : HoldReason) : ∀ (es : List HistEntry) (s : State),
    (releaseEntries es s).refCount i k = s.refCount i k - if k = .history then historyNaming i es else 0
  | [], s => by simp [releaseEntries, historyNaming]
  | e :: es, s => by
    show (releaseEntries es (releaseEntry e s)).refCount i k = _
    rw [refCount_releaseEntries i k es, refCount_releaseEntry]
    cases k <;> simp [historyNaming, Nat.sub_sub]

theorem refCount_releaseChanges (i : Fin 8) (k : HoldReason) : ∀ (q : List Change) (s : State),
    (q.foldl (fun s c => releaseChange c s) s).refCount i k = s.refCount i k - if k = .queue then queueNaming i q else 0
  | [], s => by simp [queueNaming]
  | c :: q, s => by
    rw [List.foldl_cons, refCount_releaseChanges i k q, releaseChange, refCount_release, queueNaming_cons]
    cases k <;> simp [Nat.sub_sub]

/-! ### The holds that given records make -/

/-- What the records count for a slot: a cursor, a history and a queue that are given, and the picks of the hook chain. -/
def State.namedBy (s : State) (c : Option Cursor) (h : List HistEntry) (q : List Change) (i : Fin 8) : HoldReason → Nat
  | .cursor => cursorNaming i c
  | .staged => if s.hcc.holdsReleased then 0 else planNaming i s.xpe.staging.plan
  | .latched => if s.hcc.holdsReleased then 0 else planNaming i s.hcc.latched.plan
  | .history => historyNaming i h
  | .queue => queueNaming i q

/-- R30, R31 for a cursor, a history and a queue that need not be those of the state: between two of its updates a block holds
for the one and the other. -/
structure State.HoldsFor (s : State) (c : Option Cursor) (h : List HistEntry) (q : List Change) : Prop where
  exact : ∀ i k, s.refCount i k = s.namedBy c h q i k
  valid : ∀ i, (s.slot i).held = true → (s.slot i).state = .valid
  released : s.hcc.holdsReleased = true → s.takes

theorem holdsSound_iff (s : State) : s.holdsSound ↔ s.HoldsFor s.seq.cursor s.seq.history s.chu.queue := by
  have hn : ∀ i k, (s.namings i).count k = s.namedBy s.seq.cursor s.seq.history s.chu.queue i k := fun i k => by
    cases k <;> rfl
  constructor
  · rintro ⟨h1, h2, h3⟩
    exact ⟨fun i k => by rw [← hn, ← h1 i]; rfl, h2, h3⟩
  · rintro ⟨h1, h2, h3⟩
    exact ⟨fun i => Refs.ext_count fun k => by rw [hn]; exact h1 i k, h2, h3⟩

/-- A slot that is named is VALID. -/
theorem State.HoldsFor.named {s : State} {c : Option Cursor} {h : List HistEntry} {q : List Change} (H : s.HoldsFor c h q)
    {i : Fin 8} (k : HoldReason) (hk : 0 < s.namedBy c h q i k) : (s.slot i).state = .valid :=
  H.valid i ((Slot.held_iff _).2 ⟨k, by rw [← H.exact i k] at hk; exact hk⟩)

/-- Recounting keeps held slots VALID when every slot counted more is VALID. -/
theorem valid_recounted {s t : State} (hr : s.Recounted t) (hv : ∀ i, (s.slot i).held = true → (s.slot i).state = .valid)
    (hc : ∀ i k, s.refCount i k < t.refCount i k → (s.slot i).state = .valid) (i : Fin 8) (hi : (t.slot i).held = true) :
    (t.slot i).state = .valid := by
  rw [hr.state_eq]
  obtain ⟨k, hk⟩ := (Slot.held_iff _).1 hi
  by_cases hlt : s.refCount i k < t.refCount i k
  · exact hc i k hlt
  · exact hv i ((Slot.held_iff _).2 ⟨k, Nat.lt_of_lt_of_le hk (Nat.not_lt.1 hlt)⟩)

namespace State.HoldsFor
variable {s t : State} {c d : Option Cursor} {h g : List HistEntry} {q r : List Change}

/-- Claims and releases, after a change of units that count nothing, carry the holds over from records to records. -/
theorem recount (H : s.HoldsFor c h q) {u : State} (hr : u.Recounted t) (hu : u.fst = s.fst)
    (he : ∀ i k, s.refCount i k = s.namedBy c h q i k → t.refCount i k = u.namedBy d g r i k)
    (hc : ∀ i k, s.refCount i k < t.refCount i k → (s.slot i).state = .valid)
    (hrel : u.hcc.holdsReleased = true → u.takes) : t.HoldsFor d g r := by
  have hs : ∀ i, u.slot i = s.slot i := fun i => by rw [State.slot, hu]; rfl
  refine ⟨fun i k => ?_, valid_recounted hr (fun i => by rw [hs]; exact H.valid i) (fun i k => ?_), ?_⟩
  · rw [he i k (H.exact i k)]
    cases k <;> simp [State.namedBy, hr.hcc_eq, hr.xpe_eq]
  · rw [hs, State.refCount, hs]; exact hc i k
  · rw [State.takes, hr.hcc_eq]; exact hrel

/-- A change of other units, of the records alone, or of the hook chain with its picks. -/
theorem congr (H : s.HoldsFor c h q) (hf : t.fst = s.fst) (hn : ∀ i k, t.namedBy d g r i k = s.namedBy c h q i k)
    (hr : t.hcc.holdsReleased = true → t.takes) : t.HoldsFor d g r := by
  have hs : ∀ i, t.slot i = s.slot i := fun i => by rw [State.slot, hf]; rfl
  refine ⟨fun i k => ?_, fun i => by rw [hs]; exact H.valid i, hr⟩
  rw [hn, ← H.exact, State.refCount, hs]; rfl

end State.HoldsFor

/-- A hook chain that is not TAKING holds for both its picks (log 15). -/
theorem State.HoldsFor.unreleased {s : State} {c : Option Cursor} {h : List HistEntry} {q : List Change}
    (H : s.HoldsFor c h q) (ht : s.hcc.isTaking = false) : s.hcc.holdsReleased = false := by
  cases hr : s.hcc.holdsReleased with
  | false => rfl
  | true => rw [(isTaking_iff_takes s).2 (H.released hr)] at ht; cases ht

theorem planNaming_congr (i : Fin 8) {p r : Option Plan} (h : p.map (·.cursor) = r.map (·.cursor)) :
    planNaming i p = planNaming i r := by
  have e : ∀ x : Option Plan, planNaming i x = cursorNaming i (x.map (·.cursor)) := fun x => by cases x <;> rfl
  rw [e, e, h]

/-- An update of HCC keeps what released holds wait for. -/
theorem released_of {s : State} {x : Hcc} (H : s.hcc.holdsReleased = true → s.takes) (hr : x.holdsReleased = s.hcc.holdsReleased)
    (hk : x.holdsReleased = true → s.hcc.isTaking = true → x.isTaking = true) (hx : x.holdsReleased = true) :
    ({ s with hcc := x } : State).takes :=
  (isTaking_iff_takes { s with hcc := x }).1 (hk hx ((isTaking_iff_takes s).2 (H (hr ▸ hx))))

/-- The links, the weft unit and the hook chain hold for their own picks alone. -/
theorem hooked_holdsFor (c : Option Cursor) (h : List HistEntry) (q : List Change) :
    Hooked fun s => s.HoldsFor c h q where
  link := fun l f H _ _ => H.congr (modLink_fst ..) (fun i k => by cases k <;> simp [State.namedBy])
    (by rw [State.takes, modLink_hcc]; exact H.released)
  wft := fun _ H _ => H.congr rfl (fun _ _ => rfl) H.released
  hcc := by
    intro s x H _ hl hr hk
    refine H.congr rfl (fun i k => ?_) (released_of H.released hr hk)
    cases k <;> simp only [State.namedBy, hr, planNaming_congr i hl]
  xpe := by
    intro s x H hx
    refine H.congr rfl (fun i k => ?_) H.released
    cases k <;> simp only [State.namedBy, planNaming_congr i hx]
  unstage := by
    intro s p H hp ht
    refine H.recount (recounted_release ..) rfl (fun i k he => ?_) (fun i k hlt => ?_) H.released
    · rw [refCount_release]
      show s.refCount i k - _ = _
      rw [he]
      cases k <;> simp [State.namedBy, H.unreleased ht, hp, planNaming]
      rfl
    · rw [refCount_release] at hlt
      exact absurd hlt (Nat.not_lt.2 (Nat.sub_le ..))
  unlatch := by
    intro s p x H hp hx _ hr hk
    refine H.recount (recounted_release ..) rfl (fun i k he => ?_) (fun i k hlt => ?_) (released_of H.released hr hk)
    · rw [refCount_release]
      show s.refCount i k - _ = _
      rw [he]
      cases k <;> simp [State.namedBy, hr, hp, hx, planNaming]
      split <;> simp
    · rw [refCount_release] at hlt
      exact absurd hlt (Nat.not_lt.2 (Nat.sub_le ..))

namespace State.HoldsFor
variable {s : State} {h : List HistEntry} {q : List Change}

/-- The cursor goes from one VALID slot to another. -/
theorem placeCursor (H : s.HoldsFor s.seq.cursor h q) (x : SeqState) {c : Cursor} (hv : (s.slot c.slot).state = .valid) :
    (placeCursor x c s).HoldsFor (some c) h q := by
  have hrefs : ∀ i k, (Machine.placeCursor x c s).refCount i k =
      s.refCount i k + (if HoldReason.cursor = k ∧ c.slot = i then 1 else 0) -
        if k = .cursor then cursorNaming i s.seq.cursor else 0 := fun i k => by
    rw [Machine.placeCursor, refCount_releaseCursor]
    show (claim .cursor c.slot s).refCount i k - _ = _
    rw [refCount_claim]
  refine H.recount (recounted_placeCursor x c s) rfl (fun i k he => ?_) (fun i k hlt => ?_) H.released
  · rw [hrefs, he]
    cases k <;> simp [State.namedBy, cursorNaming]
  · rw [hrefs] at hlt
    by_cases hc : HoldReason.cursor = k ∧ c.slot = i
    · rw [← hc.2]; exact hv
    · rw [if_neg hc] at hlt; omega

theorem moveCursor (H : s.HoldsFor s.seq.cursor h q) {c : Cursor} (hv : (s.slot c.slot).state = .valid) :
    (moveCursor c s).HoldsFor (some c) h q := by
  have h1 : (Machine.placeCursor s.seq.state c s).HoldsFor (some c) h q := H.placeCursor _ hv
  unfold Machine.moveCursor
  dsimp only
  split
  · exact h1
  · exact (hooked_holdsFor _ _ _).discardStaging h1

/-- R129: the entry is claimed, the entries that fall off are released. -/
theorem appendEntry {c : Option Cursor} (H : s.HoldsFor c s.seq.history q) {e : HistEntry}
    (hv : ∀ i, 0 < e.naming i → (s.slot i).state = .valid) :
    (appendEntry e s).HoldsFor c (s.seq.joined e).history q := by
  have hrefs : ∀ i k, (Machine.appendEntry e s).refCount i k = s.refCount i k + (if k = .history then e.naming i else 0) -
      if k = .history then historyNaming i ((s.seq.history ++ [e]).take ((s.seq.history ++ [e]).length - 64)) else 0 := by
    intro i k
    rw [Machine.appendEntry, refCount_releaseEntries]
    show (claimEntry e s).refCount i k - _ = _
    rw [refCount_claimEntry]
  refine H.recount (recounted_appendEntry e s) rfl (fun i k he => ?_) (fun i k hlt => ?_) H.released
  · rw [hrefs, he]
    cases k with
    | history =>
      have hsum := historyNaming_append i ((s.seq.history ++ [e]).take ((s.seq.history ++ [e]).length - 64))
        ((s.seq.history ++ [e]).drop ((s.seq.history ++ [e]).length - 64))
      rw [List.take_append_drop, historyNaming_append] at hsum
      have h1 : historyNaming i [e] = e.naming i := by simp [historyNaming]
      simp only [State.namedBy, if_true, Seq.joined]
      omega
    | _ => simp [State.namedBy]
  · rw [hrefs] at hlt
    refine hv i ?_
    cases k <;> simp at hlt
    omega

/-- The entry `e` is released, after it has left the records. -/
theorem releaseEntry {c : Option Cursor} {e : HistEntry} (H : s.HoldsFor c (h ++ [e]) q) :
    (releaseEntry e s).HoldsFor c h q := by
  refine H.recount (recounted_releaseEntry e s) rfl (fun i k he => ?_) (fun i k hlt => ?_) H.released
  · rw [refCount_releaseEntry, he]
    have h1 : historyNaming i [e] = e.naming i := by simp [historyNaming]
    cases k <;> simp [State.namedBy, historyNaming_append, h1]
  · rw [refCount_releaseEntry] at hlt
    exact absurd hlt (Nat.not_lt.2 (Nat.sub_le ..))

/-- A change joins the queue. -/
theorem claimChange {c : Option Cursor} (H : s.HoldsFor c h q) {r : List Change} {i : Fin 8}
    (hr : ∀ j, queueNaming j r = queueNaming j q + if i = j then 1 else 0) (hv : (s.slot i).state = .valid) :
    (claim .queue i s).HoldsFor c h r := by
  refine H.recount (recounted_claim ..) rfl (fun j k he => ?_) (fun j k hlt => ?_) H.released
  · rw [refCount_claim, he]
    cases k <;> simp [State.namedBy, hr]
  · rw [refCount_claim] at hlt
    by_cases hk : HoldReason.queue = k ∧ i = j
    · rw [← hk.2]; exact hv
    · rw [if_neg hk] at hlt; omega

/-- A change leaves the queue. -/
theorem releaseChange {c : Option Cursor} (H : s.HoldsFor c h q) {r : List Change} (e : Change)
    (hr : ∀ j, queueNaming j q = queueNaming j r + if e.slot = j then 1 else 0) :
    (releaseChange e s).HoldsFor c h r := by
  refine H.recount (recounted_release ..) rfl (fun j k he => ?_) (fun j k hlt => ?_) H.released
  · rw [Machine.releaseChange, refCount_release, he]
    cases k <;> simp [State.namedBy, hr]
  · rw [Machine.releaseChange, refCount_release] at hlt
    exact absurd hlt (Nat.not_lt.2 (Nat.sub_le ..))

end State.HoldsFor

/-! ### Commit -/

theorem moveCursor_chu (c : Cursor) (s : State) : (moveCursor c s).chu = s.chu := by
  unfold moveCursor
  dsimp only
  split
  · exact (recounted_placeCursor s.seq.state c s).chu_eq
  · rw [discardStaging_chu]
    exact (recounted_placeCursor s.seq.state c s).chu_eq

theorem recorded_chu (p : Plan) (s : State) : (recorded p s).chu =
    { s.chu.countHits (s.chu.hitsOn p) with queue := queueAfter s.chu.queue (s.headOutcome p) } := by
  unfold recorded
  simp only [(recounted_appendEntry ..).chu_eq]

theorem recorded_slot (p : Plan) (s : State) (i : Fin 8) : ((recorded p s).slot i).state = (s.slot i).state :=
  (recounted_appendEntry (s.entryAt p) s).state_eq i

theorem recorded_design (p : Plan) (s : State) (i : Fin 8) : (recorded p s).design i = s.design i :=
  (recounted_appendEntry (s.entryAt p) s).design_eq i

theorem counted_slot (c : Change) : c.counted.slot = c.slot := by
  unfold Change.counted; split <;> rfl

/-- The change that a commit applies is the head, which leaves the queue. -/
theorem appliedAt_some {s : State} {p : Plan} {c : Change} (h : s.appliedAt p = some c) :
    ∃ d r, s.chu.queue = d :: r ∧ c = d.counted ∧ queueAfter s.chu.queue (s.headOutcome p) = r := by
  unfold State.appliedAt at h
  split at h
  next ha =>
    cases hq : s.chu.queue with
    | nil => simp [State.headOutcome, headAt, hq] at h
    | cons d r =>
      simp only [State.headOutcome, headAt, hq, Option.some.injEq] at h ha ⊢
      exact ⟨d, r, rfl, h.symm, by simp [queueAfter, ha]⟩
  · cases h

theorem appliedAt_none {s : State} {p : Plan} (h : s.appliedAt p = none) :
    (queueAfter s.chu.queue (s.headOutcome p)).map (·.slot) = s.chu.queue.map (·.slot) := by
  cases hq : s.chu.queue with
  | nil => simp [State.headOutcome, headAt, hq, queueAfter]
  | cons d r =>
    simp only [State.appliedAt, State.headOutcome, headAt, hq] at h ⊢
    split at h
    · cases h
    next ha => simp [queueAfter, ha, counted_slot]

/-- R58: the plain advance stays in its design. -/
theorem advance_slot (s : State) (c : Cursor) : (s.advance c).1.slot = c.slot := by
  unfold State.advance
  dsimp only
  split
  · rfl
  · split <;> rfl

theorem holdsFor_commitCore {s : State} {p : Plan} (hp : s.pendingPlan = some p)
    (H : s.HoldsFor s.seq.cursor s.seq.history s.chu.queue) :
    (commitCore p s).HoldsFor (commitCore p s).seq.cursor (commitCore p s).seq.history (commitCore p s).chu.queue := by
  have hcur : (s.slot p.cursor.slot).state = .valid :=
    H.named .cursor (by simp [State.namedBy, pendingPlan_cursor hp, cursorNaming])
  have hchg : ∀ c, s.appliedAt p = some c → (s.slot c.slot).state = .valid := fun c hc => by
    obtain ⟨d, r, hq, rfl, -⟩ := appliedAt_some hc
    exact H.named .queue (by
      show 0 < queueNaming _ s.chu.queue
      rw [hq, queueNaming_cons, counted_slot, if_pos rfl]
      omega)
  have hent : ∀ i, 0 < (s.entryAt p).naming i → (s.slot i).state = .valid := by
    intro i hi
    by_cases hc : p.cursor.slot = i
    · rw [← hc]; exact hcur
    · cases ha : s.appliedAt p with
      | none => simp [HistEntry.naming, State.entryAt, entryOf, ha, hc] at hi
      | some c =>
        have : c.slot = i := by
          simpa [HistEntry.naming, State.entryAt, entryOf, ha, hc, Change.record, Nat.pos_iff_ne_zero] using hi
        rw [← this]; exact hchg c ha
  have H1 : (recorded p s).HoldsFor (recorded p s).seq.cursor (recorded p s).seq.history s.chu.queue := by
    rw [recorded_seq]
    refine (H.appendEntry hent).congr rfl (fun i k => ?_) ?_
    · cases k <;> rfl
    · show (appendEntry (s.entryAt p) s).hcc.holdsReleased = true → (appendEntry (s.entryAt p) s).takes
      rw [State.takes, (recounted_appendEntry ..).hcc_eq]; exact H.released
  rw [commitCore_eq]
  split
  next c hc =>
    have H2 := H1.moveCursor (c := (recorded p s).target c p.cursor) (by rw [recorded_slot]; exact hchg c hc)
    obtain ⟨d, r, hq, rfl, ha⟩ := appliedAt_some hc
    have H3 := H2.releaseChange (r := r) d.counted fun j => by
      rw [hq, queueNaming_cons, counted_slot]; omega
    rw [releaseChange] at H3 ⊢
    rw [(recounted_release ..).seq_eq, (recounted_release ..).chu_eq, moveCursor_seq, moveCursor_chu, recorded_chu, ha]
    exact H3
  next hn =>
    have H2 := H1.moveCursor (c := (s.advance p.cursor).1) (by rw [recorded_slot, advance_slot]; exact hcur)
    rw [moveCursor_seq, moveCursor_chu, recorded_chu]
    refine H2.congr rfl (fun i k => ?_) H2.released
    cases k with
    | queue => exact queueNaming_congr i (appliedAt_none hn)
    | _ => rfl

/-! ### Unwind -/

theorem giveBackCount_slots (i : Half) (q : List Change) : (giveBackCount i q).map (·.slot) = q.map (·.slot) := by
  have hg : ∀ c : Change, c.giveBack.slot = c.slot := fun c => by unfold Change.giveBack; split <;> rfl
  cases q with
  | nil => rfl
  | cons c q =>
    show ((if c.id = i then c.giveBack :: q else c :: q).map (·.slot)) = _
    split <;> simp [hg]

theorem queueNaming_dropLast {q : List Change} {c : Change} (hc : q.getLast? = some c) (j : Fin 8) :
    queueNaming j q = queueNaming j q.dropLast + if c.slot = j then 1 else 0 := by
  conv => lhs; rw [← dropLast_append_of_getLast? hc]
  rw [queueNaming_append, queueNaming_cons]
  rfl

theorem holdsFor_restoreChange {s : State} {c : Option Cursor} {h : List HistEntry} (a : AppliedChange)
    (H : s.HoldsFor c h s.chu.queue) (hv : (s.slot a.slot).state = .valid) :
    (restoreChange a s).HoldsFor c h (restoreChange a s).chu.queue := by
  by_cases hn : s.chu.queue.length < 4
  · rw [restoreChange_room a hn]
    have H1 : State.HoldsFor { s with chu := { s.chu with queue := a.restored :: s.chu.queue } } c h s.chu.queue :=
      H.congr rfl (fun _ k => by cases k <;> rfl) H.released
    rw [raise_chu, (recounted_claim ..).chu_eq]
    refine (hooked_holdsFor _ _ _).raise _ _ (H1.claimChange (fun j => ?_) hv)
    rw [queueNaming_cons, Nat.add_comm]; rfl
  · obtain ⟨d, hd⟩ := exists_tail hn
    rw [restoreChange_full a hn hd]
    have H1 : State.HoldsFor { s with chu := { s.chu with queue := a.restored :: s.chu.queue.dropLast } } c h s.chu.queue :=
      H.congr rfl (fun _ k => by cases k <;> rfl) H.released
    have H2 := (hooked_holdsFor _ _ _).raiseDropped d.id (H1.releaseChange d (queueNaming_dropLast hd))
    rw [raise_chu, (recounted_claim ..).chu_eq]
    refine (hooked_holdsFor _ _ _).raise _ _ (H2.claimChange (fun j => ?_) ?_)
    · simp only [raiseDropped, raise_chu, modLink_chu, releaseChange, (recounted_release ..).chu_eq]
      rw [queueNaming_cons, Nat.add_comm]; rfl
    · have : ∀ t : State, ((raiseDropped d.id t).slot a.slot) = t.slot a.slot := fun t => by
        simp [raiseDropped, State.slot]
      rw [this, releaseChange, (recounted_release ..).state_eq]
      exact hv

theorem holdsFor_unwindChanges {s : State} {c : Option Cursor} {h : List HistEntry} (e : HistEntry)
    (H : s.HoldsFor c h s.chu.queue) (hv : ∀ a, e.applied = some a → (s.slot a.slot).state = .valid) :
    (unwindChanges e s).HoldsFor c h (unwindChanges e s).chu.queue := by
  have back : ∀ {t : State}, t.HoldsFor c h t.chu.queue →
      State.HoldsFor { t with chu := (match e.counted with
        | some i => { t.chu with queue := giveBackCount i t.chu.queue } | none => t.chu).uncountHits e.hits } c h
        ((match e.counted with
        | some i => { t.chu with queue := giveBackCount i t.chu.queue } | none => t.chu).uncountHits e.hits).queue := by
    intro t Ht
    refine Ht.congr rfl (fun j k => ?_) Ht.released
    cases k with
    | queue =>
      cases e.counted with
      | none => rfl
      | some i => exact queueNaming_congr j (giveBackCount_slots i t.chu.queue)
    | _ => rfl
  unfold unwindChanges
  cases ha : e.applied with
  | none => exact back H
  | some a => exact back (holdsFor_restoreChange a H (hv a ha))

theorem unwind_chu (e : HistEntry) (s : State) : (unwind e s).chu = (unwindChanges e s).chu := by
  unfold unwind
  dsimp only
  rw [(recounted_releaseEntry ..).chu_eq]
  exact moveCursor_chu ..

theorem recounted_restoreChange_state (a : AppliedChange) (s : State) (i : Fin 8) :
    ((restoreChange a s).slot i).state = (s.slot i).state := by
  have hr : ∀ (n : NoticeKind) (t : State), (raise .p n t).slot i = t.slot i := fun n t => by simp [State.slot]
  by_cases hn : s.chu.queue.length < 4
  · rw [restoreChange_room a hn, hr, (recounted_claim ..).state_eq]
    rfl
  · obtain ⟨d, hd⟩ := exists_tail hn
    have hx : ∀ t : State, (raiseDropped d.id t).slot i = t.slot i := fun t => by simp [raiseDropped, State.slot]
    rw [restoreChange_full a hn hd, hr, (recounted_claim ..).state_eq, hx, releaseChange, (recounted_release ..).state_eq]
    rfl

theorem unwindChanges_state (e : HistEntry) (s : State) (i : Fin 8) :
    ((unwindChanges e s).slot i).state = (s.slot i).state := by
  unfold unwindChanges
  cases e.applied with
  | none => rfl
  | some a => exact recounted_restoreChange_state a s i

theorem holdsFor_unwind {s : State} {e : HistEntry} (he : s.seq.history.getLast? = some e)
    (H : s.HoldsFor s.seq.cursor s.seq.history s.chu.queue) :
    (unwind e s).HoldsFor (unwind e s).seq.cursor (unwind e s).seq.history (unwind e s).chu.queue := by
  have hsplit := (dropLast_append_of_getLast? he).symm
  have hnaming : ∀ i, e.naming i ≤ historyNaming i s.seq.history := fun i => by
    rw [hsplit, historyNaming_append]
    simp [historyNaming]
  have hcur : (s.slot e.cursor.slot).state = .valid := H.named .history (Nat.lt_of_lt_of_le (by
      rw [HistEntry.naming, if_pos rfl]
      omega) (hnaming _))
  have hchg : ∀ a, e.applied = some a → (s.slot a.slot).state = .valid := fun a ha =>
    H.named .history (Nat.lt_of_lt_of_le (by simp [HistEntry.naming, ha]) (hnaming _))
  have H1 := holdsFor_unwindChanges e H hchg
  rw [unwind_chu, unwind_seq]
  unfold unwind
  dsimp only
  have hseq := unwindChanges_seq e s
  have hv := unwindChanges_state e s e.cursor.slot
  generalize unwindChanges e s = t at H1 hseq hv ⊢
  have H2 : State.HoldsFor { t with seq := { t.seq with woven := t.seq.woven - 1 }, wft := t.wft.restore e.group }
      t.seq.cursor s.seq.history t.chu.queue := by
    rw [hseq]
    exact H1.congr rfl (fun _ k => by cases k <;> rfl) H1.released
  have H3 := State.HoldsFor.moveCursor H2 (c := e.cursor) (hv.trans hcur)
  generalize Machine.moveCursor e.cursor _ = u at H3 ⊢
  rw [hsplit] at H3
  exact State.HoldsFor.releaseEntry (s := { u with seq := { u.seq with history := u.seq.history.dropLast } })
    (H3.congr rfl (fun _ k => by cases k <;> rfl) H3.released)

/-! ### Reset -/

/-- R143: the program is released as a whole. -/
theorem holdsFor_releaseProgram {s : State} (H : s.HoldsFor s.seq.cursor s.seq.history s.chu.queue) :
    (releaseProgram s).HoldsFor none [] [] := by
  have hrefs : ∀ i k, (releaseProgram s).refCount i k = s.refCount i k - (if k = .queue then queueNaming i s.chu.queue else 0) -
      (if k = .history then historyNaming i s.seq.history else 0) - if k = .cursor then cursorNaming i s.seq.cursor else 0 :=
    fun i k => by rw [releaseProgram, refCount_releaseCursor, refCount_releaseEntries, refCount_releaseChanges]
  refine H.recount (recounted_releaseProgram s) rfl (fun i k he => ?_) (fun i k hlt => ?_) H.released
  · rw [hrefs, he]
    cases k <;> simp [State.namedBy, cursorNaming, historyNaming, queueNaming]
  · rw [hrefs] at hlt
    omega

/-- R143, R37: during a TAKE the hook chain's picks count no more (log 15). -/
theorem holdsFor_releaseTaken {s : State} {c : Option Cursor} {h : List HistEntry} {q : List Change}
    (H : s.HoldsFor c h q) : (releaseTaken s).HoldsFor c h q := by
  unfold releaseTaken
  dsimp only
  split
  next hc =>
    simp only [Bool.and_eq_true, Bool.not_eq_true'] at hc
    have hr := (recounted_releaseStaged s.xpe.staging s).trans (recounted_releaseLatched s.hcc.latched _)
    have hrefs : ∀ i k, (releaseLatched s.hcc.latched (releaseStaged s.xpe.staging s)).refCount i k =
        s.refCount i k - (if k = .staged then planNaming i s.xpe.staging.plan else 0) -
          if k = .latched then planNaming i s.hcc.latched.plan else 0 :=
      fun i k => by rw [refCount_releaseLatched, refCount_releaseStaged]
    generalize releaseLatched s.hcc.latched (releaseStaged s.xpe.staging s) = t at hr hrefs ⊢
    have ht : t.takes := by rw [State.takes, hr.hcc_eq]; exact (isTaking_iff_takes s).1 hc.1
    refine ⟨fun i k => ?_, fun i => valid_recounted hr H.valid (fun j k hlt => ?_) i, fun _ => ht⟩
    · show t.refCount i k = _
      rw [hrefs, H.exact]
      cases k <;> simp [State.namedBy, hc.2]
    · rw [hrefs] at hlt
      omega
  · exact H

theorem weaveReset_cursor (q : Seq) : q.weaveReset.cursor = none ∧ q.weaveReset.history = [] := ⟨rfl, rfl⟩

theorem holdsFor_resetWeaving {s : State} (H : s.HoldsFor s.seq.cursor s.seq.history s.chu.queue) :
    (resetWeaving s).HoldsFor (resetWeaving s).seq.cursor (resetWeaving s).seq.history (resetWeaving s).chu.queue := by
  have h1 := (hooked_holdsFor _ _ _).dropAll ((hooked_holdsFor _ _ _).discardStaging
    (holdsFor_releaseTaken (holdsFor_releaseProgram H)))
  have hq : (resetWeaving s).chu.queue = [] := by
    unfold resetWeaving departed
    dsimp only
    split <;> simp [stallOff, Chu.weaveReset]
  rw [resetWeaving_seq, hq]
  unfold resetWeaving
  dsimp only
  generalize dropAll _ = t at h1 ⊢
  exact (hooked_holdsFor _ _ _).departed _ (h1.congr rfl (fun _ k => by cases k <;> rfl) h1.released)

/-! ### Every command -/

/-- The invariant of O13. -/
def State.holdsExactly (s : State) : Prop := s.HoldsFor s.seq.cursor s.seq.history s.chu.queue

theorem holdsExactly_seq {s : State} {q : Seq} (H : s.holdsExactly) (hc : q.cursor = s.seq.cursor)
    (hp : q.program = s.seq.program) : State.holdsExactly { s with seq := q } := by
  refine State.HoldsFor.congr H rfl (fun i k => ?_) H.released
  cases k with
  | cursor => simp only [State.namedBy, hc]
  | history => exact historyNaming_congr i hp
  | _ => rfl

/-- A change of one slot that leaves its references, and keeps a held one VALID. -/
theorem holdsExactly_slots {s : State} {f : Fst} (H : s.holdsExactly)
    (hr : ∀ i, (f.slots.get i).refs = (s.slot i).refs)
    (hv : ∀ i, (s.slot i).held = true → (s.slot i).state = .valid → (f.slots.get i).state = .valid) :
    State.holdsExactly { s with fst := f } := by
  have hheld : ∀ i, (f.slots.get i).held = (s.slot i).held := fun i => by unfold Slot.held; rw [hr]
  refine ⟨fun i k => ?_, fun i hi => ?_, H.released⟩
  · rw [State.refCount, State.slot, hr]
    exact H.exact i k
  · have hi : (s.slot i).held = true := by rw [← hheld]; exact hi
    exact hv i hi (H.valid i hi)

theorem holdsExactly_poweredOn (z w : Bool) (s : State) : (poweredOn z w s).holdsExactly := by
  refine ⟨fun i k => ?_, fun i hi => ?_, nofun⟩
  · rw [State.refCount, slot_poweredOn]
    cases k <;> rfl
  · rw [slot_poweredOn] at hi
    cases hi

theorem governed_holdsExactly : Governed State.holdsExactly where
  link := by
    intro s l f H ha hk
    unfold State.holdsExactly
    rw [modLink_seq, modLink_chu]
    exact (hooked_holdsFor _ _ _).link l f H ha hk
  wft := fun w H hw => (hooked_holdsFor _ _ _).wft w H hw
  hcc := fun x H h1 h2 h3 h4 => (hooked_holdsFor _ _ _).hcc x H h1 h2 h3 h4
  xpe := fun x H hx => (hooked_holdsFor _ _ _).xpe x H hx
  unstage := fun p H hp ht => (hooked_holdsFor _ _ _).unstage p H hp ht
  unlatch := fun p x H h1 h2 h3 h4 h5 => (hooked_holdsFor _ _ _).unlatch p x H h1 h2 h3 h4 h5
  grd := fun _ H _ _ => State.HoldsFor.congr H rfl (fun _ k => by cases k <;> rfl) H.released
  ang := fun _ H _ => State.HoldsFor.congr H rfl (fun _ k => by cases k <;> rfl) H.released
  draws := fun _ H => State.HoldsFor.congr H rfl (fun _ k => by cases k <;> rfl) H.released
  seq := fun q H _ hc _ hp => holdsExactly_seq H hc hp
  move := fun _ H _ _ _ => State.HoldsFor.congr H rfl (fun _ k => by cases k <;> rfl) H.released
  intoGuard := fun _ H _ _ => State.HoldsFor.congr H rfl (fun _ k => by cases k <;> rfl) H.released
  leaveGuard := fun _ H _ _ => State.HoldsFor.congr H rfl (fun _ k => by cases k <;> rfl) H.released
  chu := by
    intro s u H hu
    refine State.HoldsFor.congr H rfl (fun i k => ?_) H.released
    cases k with
    | queue => exact queueNaming_congr i hu
    | _ => rfl
  stage := by
    intro s p j H hc hx ht
    have hr := H.unreleased ht
    refine H.recount (recounted_claim .staged p.cursor.slot _) rfl (fun i k he => ?_) (fun i k hlt => ?_) H.released
    · rw [refCount_claim]
      show s.refCount i k + _ = _
      rw [he]
      cases k <;> simp [State.namedBy, hr, hx, planNaming, Staging.plan]
    · rw [refCount_claim] at hlt
      by_cases hk : HoldReason.staged = k ∧ p.cursor.slot = i
      · rw [← hk.2]
        exact H.named .cursor (by simp [State.namedBy, hc, cursorNaming])
      · rw [if_neg hk] at hlt
        exact absurd hlt (Nat.lt_irrefl _)
  latch := by
    intro s p i H hx hr
    have hp : s.xpe.staging.plan = some p := by rw [hx]; rfl
    have hrefs : ∀ j k, (release .staged p.cursor.slot (releaseLatched s.hcc.latched (claim .latched p.cursor.slot { s with
        hcc := { s.hcc with transfer := .idle, latched := .pick p i }, xpe := { s.xpe with staging := .empty } }))).refCount j k =
        s.refCount j k + (if HoldReason.latched = k ∧ p.cursor.slot = j then 1 else 0) -
          (if k = .latched then planNaming j s.hcc.latched.plan else 0) -
          if HoldReason.staged = k ∧ p.cursor.slot = j then 1 else 0 := fun j k => by
      rw [refCount_release, refCount_releaseLatched, refCount_claim]
      rfl
    refine State.HoldsFor.recount H (((recounted_claim ..).trans (recounted_releaseLatched ..)).trans (recounted_release ..)) rfl
      (fun j k he => ?_) (fun j k hlt => ?_) fun hx => by rw [show s.hcc.holdsReleased = true from hx] at hr; cases hr
    · rw [hrefs, he]
      cases k <;> simp [State.namedBy, hr, hx, planNaming, Staging.plan, Latched.plan]
    · rw [hrefs] at hlt
      by_cases hk : HoldReason.latched = k ∧ p.cursor.slot = j
      · rw [← hk.2]
        exact H.named .staged (by simp [State.namedBy, hr, hp, planNaming])
      · rw [if_neg hk] at hlt
        omega
  closeReleased := by
    intro s H hr
    refine State.HoldsFor.congr H rfl (fun i k => ?_) nofun
    cases k <;> simp [State.namedBy, closeReleased, hr, planNaming, Staging.plan, Latched.plan]
  commit := fun _ H hp => holdsFor_commitCore hp H
  unwind := fun _ H he => holdsFor_unwind he H
  define := by
    intro s i w n map H he _
    refine holdsExactly_slots H (fun j => ?_) fun j hh hv => ?_
    · simp only [Fst.define, get_upd_eq]
      split
      next e => rw [e]; rfl
      · rfl
    · have : j ≠ i := fun e => by rw [e, he] at hv; cases hv
      simp only [Fst.define, get_upd_eq, if_neg this]
      exact hv
  erase := by
    intro s i H he
    refine holdsExactly_slots H (fun j => ?_) fun j hh hv => ?_
    · simp only [Fst.erase, get_upd_eq]
      split
      next e => rw [e]; rfl
      · rfl
    · have : j ≠ i := fun e => by
        rcases he with he | he
        · rw [e, he] at hv; cases hv
        · rw [e, he] at hh; cases hh
      simp only [Fst.erase, get_upd_eq, if_neg this]
      exact hv
  slot := by
    intro s i f H hf
    refine holdsExactly_slots H (fun j => ?_) fun j hh hv => ?_
    · rw [slots_modSlot]
      split
      next e => rw [e]; exact hf.refs
      · rfl
    · rw [slots_modSlot]
      split
      next e => rw [e] at hh hv; exact hf.valid hh hv
      · exact hv
  wlb := fun _ H _ => State.HoldsFor.congr H rfl (fun _ k => by cases k <;> rfl) H.released
  hmp := fun _ H _ => State.HoldsFor.congr H rfl (fun _ k => by cases k <;> rfl) H.released
  select := by
    intro s c H _ hv _
    unfold State.holdsExactly
    rw [placeCursor_seq, (recounted_placeCursor ..).chu_eq]
    exact State.HoldsFor.placeCursor H .presenting hv
  joinQueue := by
    intro s e H hv _
    unfold State.holdsExactly joinQueue
    rw [(recounted_claim ..).seq_eq, (recounted_claim ..).chu_eq]
    refine State.HoldsFor.claimChange (q := s.chu.queue) ?_ (fun j => ?_) hv
    · exact State.HoldsFor.congr H rfl (fun _ k => by cases k <;> rfl) H.released
    · rw [queueNaming_append, queueNaming_cons]; rfl
  emptyQueue := by
    intro s H
    have hr := recounted_releaseChanges s.chu.queue s
    have h1 : (s.chu.queue.foldl (fun s c => releaseChange c s) s).HoldsFor s.seq.cursor s.seq.history [] := by
      refine H.recount hr rfl (fun i k he => ?_) (fun i k hlt => ?_) H.released
      · rw [refCount_releaseChanges, he]
        cases k <;> simp [State.namedBy, queueNaming]
      · rw [refCount_releaseChanges] at hlt
        omega
    have hs := hr.seq_eq
    unfold State.holdsExactly emptyQueue
    dsimp only
    generalize s.chu.queue.foldl (fun s c => releaseChange c s) s = t at h1 hs ⊢
    rw [hs]
    exact h1.congr rfl (fun _ k => by cases k <;> rfl) h1.released
  reset := fun H => holdsFor_resetWeaving H

theorem commanded_holdsExactly : Commanded State.holdsExactly where
  toGoverned := governed_holdsExactly
  receiver := by
    intro s l f H _
    unfold State.holdsExactly
    rw [modLink_seq, modLink_chu]
    exact State.HoldsFor.congr H (modLink_fst ..) (fun i k => by cases k <;> simp [State.namedBy])
      (by rw [State.takes, modLink_hcc]; exact H.released)
  pending := fun _ H => State.HoldsFor.congr H rfl (fun _ k => by cases k <;> rfl) H.released
  powerOn := fun z w _ => holdsExactly_poweredOn z w _

/-- Settles O13, by the holds that given records make (`State.HoldsFor`): every claim and release moves them from records to
records. -/
theorem stepKeepsHoldsSound : Obligations.StepKeepsHoldsSound := fun s t H ht =>
  (holdsSound_iff t).2 (commanded_holdsExactly.step ((holdsSound_iff s).1 H) ht)

end Sys2Proof.Machine
end

section
/-! PROOFS. Power-on reset (O2) and the invariants right after it (O3). -/

namespace Sys2Proof.Machine

theorem exec_powerOnReset (encz wstop : Bool) (s : State) :
    exec (.powerOnReset encz wstop) s = .next (poweredOn encz wstop s) := rfl

/-- Settles O2, by the reset values of the units. -/
theorem powerOnResetLoadsResetTables : Obligations.PowerOnResetLoadsResetTables := by
  intro encz wstop s
  refine ⟨poweredOn encz wstop s, exec_powerOnReset .., rfl, slot_poweredOn encz wstop s, fun b => ?_, rfl, fun v => ?_,
    fun n => ?_, rfl, rfl, rfl, rfl, rfl, fun k => ?_, fun f => ?_, rfl, fun g => ?_, rfl, rfl, rfl, rfl, rfl, rfl, rfl, rfl,
    rfl, rfl, rfl, rfl, fun m => ?_, fun m => ?_, rfl, rfl, rfl, rfl, rfl, rfl, rfl, rfl, fun x => ?_, rfl, rfl, rfl, rfl,
    rfl, rfl, rfl, rfl, rfl, rfl, rfl, rfl, rfl, fun l => by cases l <;> rfl, rfl, rfl⟩
  case refine_9 =>
    refine ⟨get_replicate .., ?_, get_replicate ..⟩
    show (Vector.ofFn _).get x.idx = _
    rw [get_ofFn]
    cases x <;> rfl
  all_goals exact get_replicate ..

theorem programSound_reset : State.reset.programSound :=
  ⟨⟨fun _ => rfl, fun _ => rfl⟩, Nat.zero_le _, trivial, fun _ => rfl, nofun⟩

theorem holdsSound_reset : State.reset.holdsSound :=
  (holdsSound_iff _).2 (holdsExactly_poweredOn false false State.reset)

theorem presentSound_reset : State.reset.presentSound := by
  have idle : ¬State.reset.takes := fun ⟨_, e⟩ => by cases e
  exact {
    waiting := nofun
    present := fun e => absurd rfl e
    stage := nofun
    filling := fun e => absurd rfl e
    guarded := by rintro (e | e) <;> cases e
    complete := fun e => absurd e idle
    released := nofun
    unloaded := fun _ => ⟨nofun, fun e => absurd e idle⟩
    ready := nofun
    finding := nofun
    taken := fun e => absurd e idle }

/-- Settles O3. -/
theorem invariantsHoldAtReset : Obligations.InvariantsHoldAtReset := by
  have hp := (consecutive_iff State.reset).2 programSound_reset
  exact ⟨trackerSound_poweredOn false false State.reset, canonical_reset, storeAccounted_poweredOn false false State.reset,
    harnessSound_poweredOn false false State.reset, hp.1, hp.2, queueBounded_poweredOn false false State.reset,
    weftSound_poweredOn false false State.reset, budgetSound_poweredOn false false State.reset,
    guardSound_poweredOn false false State.reset, stopRequestSound_poweredOn false false State.reset,
    attentionSound_poweredOn false false State.reset, holdsSound_reset, presentSound_reset, nofun, nofun⟩

end Sys2Proof.Machine
end

section
/-! PROOFS. The links (chapter 10): requests that a busy link drops (R175, R178), refusals that change nothing (R181), the
receiver and its frames (R175, R176), breaks and the end of a response (R177, R179). -/

namespace Sys2Proof.Machine

/-! ### A busy link -/

theorem served_of_asRequest {c : Instr} {l : LinkId} {r : Request} (h : c.asRequest = some (l, r)) :
    ∃ check owner, served c = some ⟨l, r, check, owner⟩ := by
  rw [asRequest_eq] at h
  obtain ⟨o, ho, e⟩ := Option.map_eq_some_iff.1 h
  cases e
  exact ⟨_, _, ho⟩

theorem countError_eq (k : Link) :
    k.countError = { k with errors := if k.errors < 65535 then k.errors + 1 else k.errors } := rfl

/-- Settles O14: the request is its link's, which drops it before it comes to an owner. -/
theorem busyLinkDropsRequests : Obligations.BusyLinkDropsRequests := by
  intro c l r s hc
  obtain ⟨check, owner, hs⟩ := served_of_asRequest hc
  exact ⟨fun h => (exec_served hs s).trans (congrArg _ (request_discarding h r check owner)),
    fun h h' => (exec_served hs s).trans (congrArg _ (request_busy h h' r check owner))⟩

/-! ### Breaks and the end of a response -/

theorem modLink_eq_self {l : LinkId} {f : Link → Link} {s : State} (h : f (s.link l) = s.link l) : s.modLink l f = s :=
  (modLink_congr s l (g := fun k => k) h).trans (modLink_id s l)

/-- Settles O60, by the stage of the outstanding request. -/
theorem breakAndResponseEnd : Obligations.BreakAndResponseEnd := by
  intro s l
  refine ⟨fun h => ⟨?_, ?_⟩, fun code h => ⟨?_, ?_⟩, fun code h => ⟨?_, ?_⟩⟩
  · exact congrArg Host.Outcome.next (modLink_congr s l (by simp [Link.breakLine, Link.endFrame, h]))
  · exact congrArg Host.Outcome.next (modLink_eq_self (by simp [Link.sent, h]))
  · exact congrArg Host.Outcome.next (modLink_congr s l (by simp [Link.breakLine, Link.endFrame, h]))
  · exact congrArg Host.Outcome.next (modLink_eq_self (by simp [Link.sent, h]))
  · exact congrArg Host.Outcome.next (modLink_congr s l (by simp [Link.breakLine, Link.endFrame, h]))
  · exact congrArg Host.Outcome.next (modLink_congr s l (by simp [Link.sent, h]))

/-! ### What an owner may answer -/

/-- An owner at `u` refuses and changes nothing, accepts, or answers later. A FRAME-ERROR is no owner's refusal. -/
def Decides (u : State) (x : State × Reply) : Prop :=
  (∃ st, st ≠ .frameError ∧ x = refuse u st) ∨ (∃ v p, x = accept v p) ∨ ∃ v, x = (v, .later)

@[simp] theorem decides_refuse (u : State) {st : Status} (h : st ≠ .frameError) : Decides u (refuse u st) := .inl ⟨st, h, rfl⟩
@[simp] theorem decides_accept (u v : State) (p : List Byte) : Decides u (accept v p) := .inr (.inl ⟨v, p, rfl⟩)
@[simp] theorem decides_later (u v : State) : Decides u (v, .later) := .inr (.inr ⟨v, rfl⟩)

theorem motionRefusal_ne {s : State} {r : Status} (h : s.motionRefusal = some r) : r ≠ .frameError := by
  unfold State.motionRefusal at h
  repeat' split at h
  all_goals cases h <;> nofun

theorem forwardRefusal_ne {s : State} {r : Status} (h : s.forwardRefusal = some r) : r ≠ .frameError := by
  unfold State.forwardRefusal at h
  split at h
  next e => cases h; exact motionRefusal_ne e
  next => repeat' split at h
          all_goals cases h <;> nofun

/-- HOOK-TEST and an overlapped READ-NOTICES apart, which write on their way to a refusal. -/
theorem decides_owner {c : Instr} {o : Served} (hc : served c = some o) (hh : c ≠ .hookTest)
    (hn : ∀ l clear e, c ≠ .readNotices l clear ⟨e, true⟩) (u : State) : Decides u (o.owner u) := by
  cases c with
  | hookTest => exact absurd rfl hh
  | identify | readStatus | readiness | stop | readSchedule | readStore | readHarness | weftPlan | resetSequencer
  | cancelChanges | readChanges | readGuard | clearGuardCount => cases hc; exact decides_accept ..
  | readNotices l clear e =>
    cases hc
    obtain ⟨e, overlapped⟩ := e
    cases overlapped with
    | true => exact absurd rfl (hn l clear e)
    | false =>
      simp only [overlapFirst, readNotices]
      split <;> simp
  | motionForward =>
    cases hc
    simp only [motionForward]
    split
    next e => exact decides_refuse _ (forwardRefusal_ne e)
    next => exact decides_accept ..
  | motionFind =>
    cases hc
    simp only [motionFind]
    split
    next e => exact decides_refuse _ (motionRefusal_ne e)
    next => exact decides_accept ..
  | motionPosition =>
    cases hc
    simp only [motionPosition]
    split
    next e => exact decides_refuse _ (motionRefusal_ne e)
    next => exact decides_accept ..
  | setNoticeMask | setSchedule | defineDesign | writeFigure | writeCards | readFigure | readCards | commitDesign
  | reopenDesign | eraseDesign | defineWeave | readWeave | setSection | setDeadList | addDeadHook | removeDeadHook
  | setFeeder | restoreFeeder | setGroup | readWeft | weftReport | feederState | census | readModules | statusRefresh
  | setEchoBudget | selectDesign | readHistory | queueChange | setMark | setGuard | clearHalt =>
    cases hc
    simp only [setNoticeMask, setSchedule, defineDesign, withSlot, writeFigure, writeCards, readFigure, readCards,
      commitDesign, reopenDesign, eraseDesign, defineWeave, readWeave, setSection, setDeadList, addDeadHook,
      removeDeadHook, setFeeder, restoreFeeder, setGroup, readWeft, weftReport, feederState, census, readModules,
      beginRefresh, setEchoBudget, selectDesign, readHistory, queueChange, setMark, setGuard, clearHalt]
    repeat' split
    all_goals simp
  | _ => cases hc

/-! ### The answer of an owner that has accepted -/

/-- The link waits for an answer, and one that stands on it is no refusal. -/
def Link.untold (k : Link) : Prop := k.suppressed = false ∧ k.outstanding ≠ none ∧ ∀ a, k.response = some a → a.status = .ok

theorem Link.untold_noted {a b : Link} (h : a.untold) (hn : a.noted b) : b.untold := by
  obtain ⟨hsup, hout, hresp⟩ := h
  obtain ⟨hk, ha⟩ := hn
  refine ⟨hk.suppressed hsup, fun e => hout ?_, fun r hr => (ha r hr).elim (hresp r) id⟩
  have hmap := hk.outstanding hsup
  rw [e] at hmap
  exact Option.map_eq_none_iff.1 hmap.symm

/-- An owner brings no refusal on a link by itself. -/
theorem governed_untold (l : LinkId) : Governed fun s => (s.link l).untold :=
  Local.governed
    { link := fun {s} l' f h _ hn => by
        by_cases hl : l' = l
        · subst hl
          rw [link_modLink]
          exact Link.untold_noted h hn
        · rwa [link_modLink_ne _ _ (Ne.symm hl)] }

theorem untold_awaited {l : LinkId} {s : State} (ho : (s.link l).isOpen = true) (hr : (s.link l).response = none)
    (r : Request) : ((s.awaited l r).link l).untold := by
  rw [State.awaited, link_modLink]
  exact ⟨((isOpen_iff _).1 ho).2.2, nofun, fun a ha => by rw [hr] at ha; cases ha⟩

theorem response_answer {k : Link} (h : k.untold) (a : Response) : (Link.answer a k).response = some a := by
  obtain ⟨hsup, hout, -⟩ := h
  cases ho : k.outstanding with
  | none => exact absurd ho hout
  | some o => simp [Link.answer, ho, hsup]

/-- R181 at the link: a refusal is the link's own, or its owner's, which has changed nothing. -/
theorem request_refused {l : LinkId} {r : Request} {check : EncodingCheck} {owner : State → State × Reply} {s : State}
    {a : Response} (ho : (s.link l).isOpen = true) (hd : check = .good → Decides (s.awaited l r) (owner (s.awaited l r)))
    (hq : check = .good → ((owner (s.awaited l r)).1.link l).untold)
    (ha : ((request l r check owner s).link l).response = some a) (hok : a.status ≠ .ok) :
    request l r check owner s =
      (if a.status = .frameError then s.modLink l Link.countError else s).responded l r a.status [] := by
  have told : ∀ {u : State} {st : Status} {p : List Byte}, request l r check owner s = u.responded l r st p →
      a = ⟨st, p⟩ := fun e => by
    rw [e, responded_response] at ha
    exact (Option.some.inj ha).symm
  cases hl : r.onLink l with
  | false =>
    have e := request_unknown check owner ho hl
    rw [e, told e]; rfl
  | true =>
    cases check with
    | frameError =>
      have e := request_frameError owner ho hl
      rw [e, told e]; rfl
    | badArgument =>
      have e := request_badArgument owner ho hl
      rw [e, told e]; rfl
    | good =>
      have hu := hq rfl
      rcases hd rfl with ⟨st, hst, e⟩ | ⟨v, p, e⟩ | ⟨v, e⟩
      · have e := request_refuses ho hl e
        rw [e, told e, if_neg hst]
      · rw [e] at hu
        rw [request_of_open ho, serve, if_pos hl] at ha
        simp only [e, accept, answer, link_modLink] at ha
        rw [response_answer (show (v.link l).untold from hu)] at ha
        exact absurd (by rw [← Option.some.inj ha]) hok
      · rw [e] at hu
        rw [request_waits ho hl e] at ha
        exact absurd (hu.2.2 a ha) hok

/-! ### The two requests that write on their way to a refusal -/

/-- R180: the receiver with a frame that starts while a READ-NOTICES waits, its count and what it follows. -/
def Link.overlapCount (overlapped : Bool) (k : Link) : Nat := if overlapped then raiseTo 65535 k.errors else k.errors

def Link.overlapFollow (overlapped : Bool) (k : Link) : Link :=
  if overlapped then { k with rx := .discarding, frame := some ⟨[], false⟩ } else k

theorem startFrame_take (c : Byte) (k : Link) : (k.take c).startFrame =
    { k with errors := raiseTo 65535 k.errors, rx := .discarding, frame := some ⟨[], false⟩,
             outstanding := some ⟨c, .atOwner⟩ } := rfl

theorem overlapFirst_awaited (o : Bool) (l : LinkId) (r : Request) (s : State) : overlapFirst o l (s.awaited l r) =
    s.modLink l fun k => Link.overlapFollow o { k.take r.code with errors := k.overlapCount o } := by
  cases o with
  | false => rfl
  | true => exact (modLink_modLink ..).trans (modLink_congr s l (startFrame_take ..))

section
variable {l : LinkId} {s : State} {clear : List NoticeKind} (ho : (s.link l).isOpen = true)
include ho

/-- R186: READ-NOTICES that names a kind its link does not carry. -/
theorem exec_readNotices_refuses (e o : Bool) (hc : ¬clear.all (carries l) = true) :
    exec (.readNotices l clear ⟨e, o⟩) s = .next
      (((s.modLink l fun k => { k with errors := (s.link l).overlapCount o }).responded l .readNotices .badArgument
        []).modLink l (Link.overlapFollow o)) := by
  have hsup := ((isOpen_iff _).1 ho).2.2
  refine congrArg Host.Outcome.next ?_
  rw [request_of_open ho, serve, if_pos (show Request.onLink .readNotices l = true by cases l <;> rfl)]
  simp only [readNotices, if_neg hc, refuse, answer, overlapFirst_awaited, State.responded, modLink_modLink]
  refine modLink_congr s l ?_
  cases o <;> simp [Link.overlapFollow, Link.answer, Link.take, hsup]

/-- R186: READ-NOTICES that names only kinds of its link. -/
theorem exec_readNotices_accepts (e o : Bool) (hc : clear.all (carries l) = true) :
    exec (.readNotices l clear ⟨e, o⟩) s = .next
      (((s.modLink l fun k => { k.clear clear e with errors := if e then 0 else (s.link l).overlapCount o }).responded
        l .readNotices .ok (noticesRecord l { s.link l with errors := (s.link l).overlapCount o })).modLink l
          (Link.overlapFollow o)) := by
  have hsup := ((isOpen_iff _).1 ho).2.2
  refine congrArg Host.Outcome.next ?_
  rw [request_of_open ho, serve, if_pos (show Request.onLink .readNotices l = true by cases l <;> rfl)]
  simp only [readNotices, if_pos hc, accept, answer, overlapFirst_awaited, State.responded, modLink_modLink]
  refine modLink_congr s l ?_
  cases o <;>
    simp [Link.overlapFollow, Link.answer, Link.take, Link.clear, Link.setNotices, noticesRecord, hsup]

end

/-- R112: HOOK-TEST at an open link. -/
theorem exec_hookTest {s : State} (ho : s.plk.isOpen = true) : exec .hookTest s = .next
    (if s.seq.state = .unloaded ∧ s.hcc.transfer = .idle then
      if 1 ≤ s.hcc.census ∧ s.hcc.census ≤ 96 then { s with hcc := { s.hcc with busTest := .hookTest } }.awaited .p .hookTest
      else { s with hcc := { s.hcc with hookTest := some .notRun } }.responded .p .hookTest .checkFailed []
    else s.responded .p .hookTest .wrongState []) := by
  refine congrArg Host.Outcome.next ?_
  split
  next hs =>
    split
    next hc => exact request_waits ho rfl ((if_pos hs).trans (if_pos hc))
    next hc =>
      exact request_answers (u := { s with hcc := { s.hcc with hookTest := some .notRun } }) ho rfl
        ((if_pos hs).trans (if_neg hc)) ((isOpen_iff _).1 ho).2.2
  next hs => exact request_refuses ho rfl (if_neg hs)

/-- What the owner of a request that waits on `l` leaves there: no refusal. -/
theorem untold_owner {c : Instr} {o : Served} (hc : served c = some o) (hg : o.check = .good)
    (hn : ∀ l clear e, c ≠ .readNotices l clear ⟨e, true⟩) (l : LinkId) {u : State} (hu : (u.link l).untold) :
    ((o.owner u).1.link l).untold := by
  have link : ∀ (m : LinkId) (f : Link → Link), (∀ k : Link, k.untold → (f k).untold) →
      ((u.modLink m f).link l).untold := fun m f hf => by
    by_cases hm : m = l
    · subst hm; rw [link_modLink]; exact hf _ hu
    · rwa [link_modLink_ne _ _ (Ne.symm hm)]
  cases c with
  | readNotices m clear e =>
    cases hc
    obtain ⟨e, overlapped⟩ := e
    cases overlapped with
    | true => exact absurd rfl (hn m clear e)
    | false =>
      simp only [overlapFirst, readNotices]
      split
      · exact link m _ fun _ => id
      · exact hu
  | setNoticeMask m mask =>
    cases hc
    simp only [setNoticeMask]
    split
    · exact link m _ fun _ => id
    · exact hu
  | _ => exact (governed_untold l).owner hc hg (by cases hc <;> nofun) (by cases hc <;> nofun) hu

/-- Settles O15, by the owner's decision; HOOK-TEST and an overlapped READ-NOTICES by their own cases. -/
theorem refusedRequestChangesNothing : Obligations.RefusedRequestChangesNothing := by
  intro c l r s t a hc ho hr ht ha hok
  obtain ⟨check, owner, hs⟩ := served_of_asRequest hc
  refine ⟨fun hn => ?_, fun ⟨clear, e, he⟩ => ?_⟩
  · by_cases hh : c = .hookTest
    · subst hh
      cases hs
      rw [exec_hookTest ho] at ht
      injection ht with ht
      subst ht
      have htold : ∀ {u : State} {st : Status}, ((u.responded .p .hookTest st []).link .p).response = some a →
          a = ⟨st, []⟩ := fun e => (Option.some.inj ((responded_response ..).symm.trans e)).symm
      split at ha
      next hs =>
        split at ha
        next hcensus => exact absurd ((untold_awaited (r := .hookTest) (s := { s with hcc := _ }) ho hr).2.2 a ha) hok
        next hcensus => rw [if_pos hs, if_neg hcensus, htold ha]; rfl
      next hs => rw [if_neg hs, htold ha]; rfl
    · have hn' : ∀ l' clear e, c ≠ .readNotices l' clear ⟨e, true⟩ := fun l' clear e he => by
        subst he
        cases hs
        exact hn clear e rfl
      rw [exec_served hs] at ht
      injection ht with ht
      subst ht
      rw [request_refused ho (fun _ => decides_owner hs hh hn' _)
        (fun hg => untold_owner hs hg hn' l (untold_awaited ho hr r)) ha hok, if_neg (c := c = _ ∧ _) fun h => hh h.1]
      rfl
  · subst he
    cases hs
    cases hall : clear.all (carries l) with
    | true =>
      rw [exec_readNotices_accepts ho e true hall] at ht
      injection ht with ht
      subst ht
      rw [link_modLink] at ha
      exact absurd (by rw [← Option.some.inj ((responded_response ..).symm.trans ha)]) hok
    | false =>
      rw [exec_readNotices_refuses ho e true (by rw [hall]; nofun)] at ht
      injection ht with ht
      subst ht
      rw [link_modLink] at ha
      rw [← Option.some.inj ((responded_response ..).symm.trans ha)]
      simp only [State.responded, modLink_modLink]
      exact modLink_congr s l rfl

/-- Settles O17, by whether the link carries every kind that the clear set names. -/
theorem readNoticesClearsNamedKinds : Obligations.ReadNoticesClearsNamedKinds := by
  intro l clear e o s ho
  refine ⟨(s.link l).overlapCount o, Link.overlapFollow o, ?_, rfl, fun ⟨k, hk, hn⟩ => ?_, fun hall => ⟨_, rfl, ?_⟩⟩
  · cases o <;> simp [Link.overlapCount, raiseTo]
  · exact exec_readNotices_refuses ho e o fun hc => by rw [List.all_eq_true.1 hc k hk] at hn; cases hn
  · rw [exec_readNotices_accepts ho e o (List.all_eq_true.2 hall)]
    simp only [State.responded, modLink_modLink]
    exact congrArg _ (modLink_congr s l (by simp [Link.clear, Link.setNotices, attentionOf]))

end Sys2Proof.Machine
end

section
/-! PROOFS. The receiver (R175, R176, R178, R190, R191): what comes of a whole frame, character by character. -/

namespace Sys2Proof.Machine

/-! ### Frames in assembly -/

/-- The assembly of the characters received after the start character. -/
def assembled (xs : List LineChar) : Assembly := ⟨xs.map (·.byte), xs.any (·.err)⟩

theorem add_assembled (xs : List LineChar) (c : LineChar) : (assembled xs).add c = assembled (xs ++ [c]) := by
  simp [assembled, Assembly.add]

/-- The last character ends the frame, and no earlier one does (R175). -/
def EndsFrame (xs : List LineChar) : Prop :=
  (assembled xs).ended = true ∧ ∀ k, k < xs.length → (assembled (xs.take k)).ended = false

theorem ended_iff (a : Assembly) :
    a.ended = true ↔ 3 ≤ a.bytes.length ∧ (4096 < a.length ∨ a.length + 5 ≤ a.bytes.length) := by
  simp [Assembly.ended]

theorem u16_take {p : List Byte} {i k : Nat} (h : i + 2 ≤ k) : u16 (p.take k) i = u16 p i := by
  have h0 : i < k := by omega
  have h1 : i + 1 < k := by omega
  simp [u16, u8, List.getD_eq_getElem?_getD, h0, h1]

/-- A frame has as many characters as its payload length asks, or three when that is too long. -/
theorem endsFrame_of_length {xs : List LineChar} {n : Nat} (hn : u16 (xs.map (·.byte)) 1 = n)
    (h : xs.length = if 4096 < n then 3 else n + 5) : EndsFrame xs := by
  constructor
  · rw [ended_iff]
    simp only [assembled, Assembly.length, List.length_map, hn]
    split at h <;> omega
  · intro k hk
    refine Bool.eq_false_iff.2 fun he => ?_
    obtain ⟨h3, hl⟩ := (ended_iff _).1 he
    simp only [assembled, Assembly.length, List.map_take, List.length_take, List.length_map] at h3 hl
    rw [u16_take (by omega), hn] at hl
    split at h <;> omega

/-! ### The receiver, character by character -/

section
variable (l : LinkId) (s : State)

/-- The receiver gathers a frame. -/
def gathering (xs : List LineChar) : State :=
  s.modLink l fun k => { k with rx := .receiving, frame := some (assembled xs) }

/-- The receiver follows an overlapping frame. -/
def following (xs : List LineChar) : State :=
  s.modLink l fun k => { k with rx := .discarding, frame := some (assembled xs) }

theorem receiveChar_gathering (xs : List LineChar) (c : LineChar) :
    receiveChar l c (gathering l s xs) =
      if (assembled (xs ++ [c])).ended then endFrame l (assembled (xs ++ [c])) (gathering l s xs)
      else .next (gathering l s (xs ++ [c])) := by
  simp only [receiveChar, gathering, link_modLink, Link.assembly, Option.getD_some, add_assembled, modLink_modLink]

theorem receiveChar_following (xs : List LineChar) (c : LineChar) :
    receiveChar l c (following l s xs) = .next
      (if (assembled (xs ++ [c])).ended then s.modLink l Link.endFrame else following l s (xs ++ [c])) := by
  simp only [receiveChar, following, link_modLink, Link.assembly, Option.getD_some, add_assembled, modLink_modLink]
  split <;> rfl

theorem receive_singleton (c : LineChar) : receive l [c] s = receiveChar l c s := by
  rw [receive]
  cases receiveChar l c s <;> rfl

theorem take_succ_append (ys zs : List LineChar) (c : LineChar) :
    (ys ++ c :: zs).take (ys.length + 1) = ys ++ [c] := by
  simp [List.take_append, List.take_of_length_le]

/-- The end of a frame that the receiver gathers. -/
theorem receive_gathering (ys : List LineChar) : ∀ (zs : List LineChar), zs ≠ [] → EndsFrame (ys ++ zs) →
    ∃ xs, receive l zs (gathering l s ys) = endFrame l (assembled (ys ++ zs)) (gathering l s xs) := by
  intro zs
  induction zs generalizing ys with
  | nil => exact fun h => absurd rfl h
  | cons c zs ih =>
    intro _ he
    cases zs with
    | nil =>
      refine ⟨ys, ?_⟩
      rw [receive_singleton, receiveChar_gathering, if_pos he.1]
    | cons d zs =>
      have hnot : (assembled (ys ++ [c])).ended = false :=
        take_succ_append ys (d :: zs) c ▸ he.2 (ys.length + 1) (by simp)
      obtain ⟨xs, hx⟩ := ih (ys ++ [c]) (by simp) (by simpa using he)
      refine ⟨xs, ?_⟩
      rw [receive, receiveChar_gathering, hnot]
      simpa using hx

/-- The end of an overlapping frame. -/
theorem receive_following (ys : List LineChar) : ∀ (zs : List LineChar), zs ≠ [] → EndsFrame (ys ++ zs) →
    receive l zs (following l s ys) = .next (s.modLink l Link.endFrame) := by
  intro zs
  induction zs generalizing ys with
  | nil => exact fun h => absurd rfl h
  | cons c zs ih =>
    intro _ he
    cases zs with
    | nil => rw [receive_singleton, receiveChar_following, if_pos he.1]
    | cons d zs =>
      have hnot : (assembled (ys ++ [c])).ended = false :=
        take_succ_append ys (d :: zs) c ▸ he.2 (ys.length + 1) (by simp)
      have hx := ih (ys ++ [c]) (by simp) (by simpa using he)
      rw [receive, receiveChar_following, hnot]
      simpa using hx

end

/-- The start character. -/
def startChar : LineChar := ⟨0xA5, false⟩

section
variable {l : LinkId} {s : State} (hrx : (s.link l).rx = .hunting)
include hrx

theorem receive_start (xs : List LineChar) : receive l (startChar :: xs) s = receive l xs (s.modLink l Link.startFrame) := by
  rw [receive, receiveChar]
  simp [hrx, startChar]

/-- R178: a frame that starts while a request is outstanding is counted and followed to its end. -/
theorem receive_overlapping (ho : (s.link l).outstanding ≠ none) {xs : List LineChar} (he : EndsFrame xs) (hx : xs ≠ []) :
    receive l (startChar :: xs) s =
      .next (s.modLink l fun k => { k with errors := raiseTo 65535 k.errors, frame := none }) := by
  have hstart : s.modLink l Link.startFrame = following l (s.modLink l Link.countError) [] := by
    rw [following, modLink_modLink]
    exact modLink_congr s l (if_neg ho)
  rw [receive_start hrx, hstart, receive_following l _ [] xs hx he, modLink_modLink]
  refine congrArg _ (modLink_congr s l ?_)
  simp [Link.endFrame, Link.countError, hrx]

/-- R175: a frame that starts while none is outstanding is gathered to its end. -/
theorem receive_gathered (ho : (s.link l).outstanding = none) {xs : List LineChar} (he : EndsFrame xs) (hx : xs ≠ []) :
    ∃ ys, receive l (startChar :: xs) s = endFrame l (assembled xs) (gathering l s ys) := by
  have hstart : s.modLink l Link.startFrame = gathering l s [] := modLink_congr s l (if_pos ho)
  rw [receive_start hrx, hstart]
  exact receive_gathering l s [] xs hx he

end

/-! ### The checks at the end of a frame (R176) -/

/-- What the link answers has the code of the frame alone. -/
theorem refuseFrame_eq {l : LinkId} {s : State} (hs : (s.link l).suppressed = false) (code : Byte) (st : Status) :
    refuseFrame l code st s = s.refusedFrame l code st := by
  rw [refuseFrame, answer, modLink_modLink]
  refine modLink_congr s l ?_
  simp [Link.answer, Link.take, hs]

theorem answerFrameError_eq {l : LinkId} {s : State} (hs : (s.link l).suppressed = false) (code : Byte) :
    answerFrameError l (s.modLink l (Link.take code)) = (s.modLink l Link.countError).refusedFrame l code .frameError := by
  rw [answerFrameError, answer, State.refusedFrame, modLink_modLink, modLink_modLink, modLink_modLink]
  refine modLink_congr s l ?_
  simp [Link.answer, Link.take, Link.countError, hs]

/-- A request that a gathered frame carries is served as one that an open link takes. -/
theorem request_gathering {l : LinkId} {s : State} (ho : (s.link l).isOpen = true) (ys : List LineChar) (r : Request)
    (check : EncodingCheck) (owner : State → State × Reply) :
    request l r check owner (gathering l s ys) = request l r check owner s := by
  have htake : (gathering l s ys).awaited l r = s.awaited l r := by
    rw [gathering, State.awaited, State.awaited, modLink_modLink]
  have hopen : ((gathering l s ys).link l).isOpen = true := by
    obtain ⟨-, hout, hsup⟩ := (isOpen_iff _).1 ho
    rw [gathering, link_modLink]
    exact (isOpen_iff _).2 ⟨nofun, hout, hsup⟩
  rw [request_of_open hopen, request_of_open ho, htake]

theorem runRequest_gathering {l : LinkId} {r : Request} {c : Instr} (hc : c.asRequest = some (l, r)) {s : State}
    (ho : (s.link l).isOpen = true) (ys : List LineChar) : runRequest c (gathering l s ys) = exec c s := by
  obtain ⟨check, owner, hs⟩ := served_of_asRequest hc
  rw [runRequest_eq, exec_served hs, hs]
  exact congrArg _ (request_gathering ho ys r check owner)

/-! ### Which request a code is -/

theorem find_code (r : Request) : Request.all.find? (fun x => x.code = r.code) = some r := by cases r <;> rfl

theorem code_injective {r r' : Request} (h : r.code = r'.code) : r = r' :=
  Option.some.inj ((find_code r).symm.trans (h ▸ find_code r'))

theorem mem_request_all (r : Request) : r ∈ Request.all := List.mem_of_find?_eq_some (find_code r)

theorem requestOf_eq_some {l : LinkId} {r : Request} (h : r.onLink l = true) : requestOf l r.code = some r := by
  cases hr : requestOf l r.code with
  | none => exact absurd (List.find?_eq_none.1 hr r (mem_request_all r)) (by simp [h])
  | some r' =>
    have hcode := List.find?_some hr
    simp only [Bool.and_eq_true, decide_eq_true_eq] at hcode
    rw [code_injective hcode.1]

theorem requestOf_eq_none {l : LinkId} {code : Byte} (h : ∀ r : Request, ¬(r.code = code ∧ r.onLink l = true)) :
    requestOf l code = none :=
  List.find?_eq_none.2 fun r _ => by simpa using h r

/-! ### The command of a payload is on the link that its frame came on -/

theorem laidOut_request {n m : Nat} {o : Option Instr} {i : Instr} (h : laidOut n m o = .request i) : o = some i := by
  unfold laidOut at h
  repeat' split at h
  all_goals cases h
  rfl

theorem passing_eq_some {c : Bool} {i j : Instr} (h : passing c i = some j) : i = j := by
  unfold passing at h
  split at h <;> cases h
  rfl

theorem decodeRequest_asRequest {l : LinkId} {r : Request} {p : List Byte} {i : Instr} (hl : r.onLink l = true)
    (h : decodeRequest l r p = .request i) : i.asRequest = some (l, r) := by
  unfold decodeRequest at h
  cases r with
  | identify => cases laidOut_request h; rfl
  | readNotices | setNoticeMask | readWeft => cases passing_eq_some (laidOut_request h); rfl
  | motion =>
    cases of_decide_eq_true hl
    have hi := laidOut_request h
    generalize u8 p 0 = k at hi
    match k, hi with
    | 0, hi | 1, hi | 2, hi | 3, hi => cases hi; rfl
  | readiness | weftPlan => cases of_decide_eq_true hl; cases laidOut_request h; rfl
  | weftReport | feederState =>
    cases of_decide_eq_true hl
    obtain ⟨_, -, e⟩ := Option.map_eq_some_iff.1 (laidOut_request h)
    cases e; rfl
  | readStatus | setSchedule | readSchedule | defineDesign | commitDesign | reopenDesign | eraseDesign | readStore
  | readWeave | addDeadHook | removeDeadHook | readHarness | restoreFeeder | census | hookTest | setEchoBudget
  | selectDesign | resetSequencer | cancelChanges | readChanges | clearHalt | clearGuardCount =>
    cases of_decide_eq_true hl; cases laidOut_request h; rfl
  | writeFigure | readFigure | readCards | defineWeave | setDeadList | readHistory | readGuard =>
    cases of_decide_eq_true hl; cases passing_eq_some (laidOut_request h); rfl
  | setSection | setGroup | setGuard =>
    cases of_decide_eq_true hl
    obtain ⟨_, -, e⟩ := Option.map_eq_some_iff.1 (laidOut_request h)
    cases e; rfl
  | readModules =>
    cases of_decide_eq_true hl
    obtain ⟨b, -, e⟩ := Option.map_eq_some_iff.1 (laidOut_request h)
    cases b <;> cases e <;> rfl
  | writeCards =>
    cases of_decide_eq_true hl
    have hi := laidOut_request h
    split at hi
    · obtain ⟨_, -, e⟩ := Option.map_eq_some_iff.1 hi
      cases e; rfl
    · cases hi
  | setFeeder | queueChange | setMark =>
    cases of_decide_eq_true hl
    have hi := laidOut_request h
    split at hi <;> cases hi
    rfl

/-! ### The fields of a frame -/

theorem u16_b16 {n : Nat} (hn : n < 65536) (xs ys : List Byte) : u16 (xs ++ b16 n ++ ys) xs.length = n := by
  have hbyte : (xs ++ b16 n ++ ys).getD xs.length 0 = BitVec.ofNat 8 n ∧
      (xs ++ b16 n ++ ys).getD (xs.length + 1) 0 = BitVec.ofNat 8 (n / 256) := by
    simp [b16, List.getD_eq_getElem?_getD]
  rw [u16, u8, u8, hbyte.1, hbyte.2, BitVec.toNat_ofNat, BitVec.toNat_ofNat]
  omega

/-- The bytes of a frame after its start character, its check apart, and all of them. -/
def frameHead (code : Byte) (payload : List Byte) : List Byte := code :: b16 payload.length ++ payload

def frameBody (code : Byte) (payload : List Byte) (check : BitVec 16) : List Byte :=
  frameHead code payload ++ b16 check.toNat

theorem length_frameHead (code : Byte) (payload : List Byte) : (frameHead code payload).length = 3 + payload.length := by
  simp [frameHead, b16]; omega

section
variable {code : Byte} {payload : List Byte} {check : BitVec 16} {xs : List LineChar}
  (hn : payload.length ≤ 4096) (hx : xs.map (·.byte) = frameBody code payload check)
include hx

theorem code_assembled : (assembled xs).code = code := by
  simp [Assembly.code, assembled, hx, frameBody, frameHead]

theorem take_assembled : (assembled xs).bytes.take (3 + payload.length) = frameHead code payload := by
  rw [← length_frameHead code payload]
  simp [assembled, hx, frameBody]

include hn

theorem length_assembled : (assembled xs).length = payload.length := by
  have h := u16_b16 (n := payload.length) (by omega) [code] (payload ++ b16 check.toNat)
  simpa [Assembly.length, assembled, hx, frameBody, frameHead] using h

omit hn in
theorem check_assembled : u16 (assembled xs).bytes (3 + payload.length) = check.toNat := by
  have h := u16_b16 (n := check.toNat) check.isLt (frameHead code payload) []
  rw [length_frameHead] at h
  simpa [assembled, hx, frameBody] using h

theorem payload_assembled : (assembled xs).payload = payload := by
  rw [Assembly.payload, length_assembled hn hx]
  simp [assembled, hx, frameBody, frameHead, b16]

theorem endsFrame_assembled : EndsFrame xs := by
  refine endsFrame_of_length (n := payload.length) (length_assembled hn hx) ?_
  have hlen := congrArg List.length hx
  rw [List.length_map, frameBody, List.length_append, length_frameHead] at hlen
  simp only [hlen, if_neg (Nat.not_lt.2 hn), b16, List.length_cons, List.length_nil]
  omega

/-- R176: the three checks of a frame whose fields are at hand. -/
theorem decode_assembled (l : LinkId) : (assembled xs).decode l =
    if xs.any (·.err) = true ∨ check ≠ frameCheck code payload then .frameError
    else match requestOf l code with
      | none => .unknownRequest
      | some r => decodeRequest l r payload := by
  have hcrc : u16 (assembled xs).bytes (3 + payload.length) ≠
      (crc16 ((assembled xs).bytes.take (3 + payload.length))).toNat ↔ check ≠ frameCheck code payload := by
    rw [check_assembled hx, take_assembled hx]
    exact not_congr BitVec.toNat_inj
  rw [Assembly.decode, length_assembled hn hx, code_assembled hx, payload_assembled hn hx]
  simp only [hcrc, Nat.not_lt.2 hn, false_or]
  rfl

end

/-! ### Whole frames at an open link -/

/-- Any of the four rows that carry the characters `cs` of a link (log 12). -/
def CarriesChars (i : Instr) (l : LinkId) (cs : List LineChar) : Prop :=
  i = .frameError l cs ∨ i = .unknownRequest l cs ∨ i = .overlappingFrame l cs ∨ i = .encodingFault l cs

theorem exec_carriesChars {i : Instr} {l : LinkId} {cs : List LineChar} (h : CarriesChars i l cs) (s : State) :
    exec i s = receive l cs s := by
  rcases h with rfl | rfl | rfl | rfl <;> rfl

/-- R176: what comes of a frame of a code at a link that takes requests. -/
def frameOutcome (l : LinkId) (code : Byte) (s : State) : Decoded → Host.Outcome State Fault Refusal
  | .frameError => .next ((s.modLink l Link.countError).refusedFrame l code .frameError)
  | .unknownRequest => .next (s.refusedFrame l code .unknownRequest)
  | .badArgument => .next (s.refusedFrame l code .badArgument)
  | .request i => exec i s

theorem decode_asRequest {l : LinkId} {a : Assembly} {i : Instr} (h : a.decode l = .request i) :
    ∃ r, i.asRequest = some (l, r) := by
  unfold Assembly.decode at h
  split at h
  · cases h
  · split at h
    · cases h
    next r hr =>
      have hcode := List.find?_some hr
      simp only [Bool.and_eq_true, decide_eq_true_eq] at hcode
      exact ⟨r, decodeRequest_asRequest hcode.2 h⟩

section
variable {l : LinkId} {s : State}

theorem take_gathering (ys : List LineChar) (code : Byte) :
    (gathering l s ys).modLink l (Link.take code) = s.modLink l (Link.take code) := modLink_modLink ..

theorem refuseFrame_gathering (ys : List LineChar) (code : Byte) (st : Status) :
    refuseFrame l code st (gathering l s ys) = refuseFrame l code st s := by
  rw [refuseFrame, take_gathering, refuseFrame]

theorem endFrame_gathering (ho : (s.link l).isOpen = true) (ys : List LineChar) (a : Assembly) :
    endFrame l a (gathering l s ys) = frameOutcome l a.code s (a.decode l) := by
  obtain ⟨-, -, hsup⟩ := (isOpen_iff _).1 ho
  rw [endFrame]
  cases hd : a.decode l with
  | frameError => simp only [take_gathering, answerFrameError_eq hsup, frameOutcome]
  | unknownRequest => simp only [refuseFrame_gathering, refuseFrame_eq hsup, frameOutcome]
  | badArgument => simp only [refuseFrame_gathering, refuseFrame_eq hsup, frameOutcome]
  | request i =>
    obtain ⟨r, hr⟩ := decode_asRequest hd
    exact runRequest_gathering hr ho ys

theorem ne_nil_of_endsFrame {xs : List LineChar} (he : EndsFrame xs) : xs ≠ [] := fun e => by
  subst e
  exact absurd he.1 (by decide)

variable {i : Instr} {xs : List LineChar} (hi : CarriesChars i l (startChar :: xs)) (hrx : (s.link l).rx = .hunting)
  (he : EndsFrame xs)
include hi hrx he

theorem exec_frame_open (ho : (s.link l).isOpen = true) :
    exec i s = frameOutcome l (assembled xs).code s ((assembled xs).decode l) := by
  obtain ⟨ys, e⟩ := receive_gathered hrx ((isOpen_iff _).1 ho).2.1 he (ne_nil_of_endsFrame he)
  rw [exec_carriesChars hi, e, endFrame_gathering ho]

theorem exec_frame_busy (ho : (s.link l).outstanding ≠ none) : exec i s =
    .next (s.modLink l fun k => { k with errors := if k.errors < 65535 then k.errors + 1 else k.errors, frame := none }) :=
  (exec_carriesChars hi s).trans (receive_overlapping hrx ho he (ne_nil_of_endsFrame he))

end

/-- The characters of a frame after the start character, received without a character error. -/
def bodyChars (bytes : List Byte) : List LineChar := bytes.map fun b => ⟨b, false⟩

theorem map_byte_bodyChars (bytes : List Byte) : (bodyChars bytes).map (·.byte) = bytes := by
  simp [bodyChars, Function.comp_def]

theorem any_err_bodyChars (bytes : List Byte) : (bodyChars bytes).any (·.err) = false := by
  simp [bodyChars]

theorem frameChars_eq (code : Byte) (payload : List Byte) (check : BitVec 16) :
    frameChars code payload check = startChar :: bodyChars (frameBody code payload check) := rfl

/-- R190, R175: three characters of a frame whose payload length is too long. -/
theorem decode_tooLong {code : Byte} {n : Nat} (h : 4096 < n) (h' : n < 65536) (l : LinkId) :
    EndsFrame (bodyChars (code :: b16 n)) ∧ (assembled (bodyChars (code :: b16 n))).code = code ∧
      (assembled (bodyChars (code :: b16 n))).decode l = .frameError := by
  have hu : u16 (code :: b16 n) 1 = n := by simpa using u16_b16 h' [code] []
  refine ⟨endsFrame_of_length (n := n) (by rwa [map_byte_bodyChars]) (by rw [if_pos h]; rfl), rfl, ?_⟩
  rw [Assembly.decode, if_pos]
  left
  rw [Assembly.length, assembled, map_byte_bodyChars, hu]
  exact h

/-- Settles O59, by the receiver's way to the end of the frame and the checks made there. -/
theorem receiverChecksFrames : Obligations.ReceiverChecksFrames := by
  intro s l code payload check cs c hn hcs hrx hc
  subst hcs
  have hbytes := map_byte_bodyChars (frameBody code payload check)
  have hc : CarriesChars c l (startChar :: bodyChars (frameBody code payload check)) := hc
  have he := endsFrame_assembled hn hbytes
  refine ⟨exec_frame_busy hc hrx he, fun ho => ⟨fun hcheck => ?_, fun hcheck => ⟨fun hr => ?_, fun r hcode hl => ?_⟩⟩,
    fun chars i hchars herr hi ho => ?_, fun n chars i hlong h16 hchars hi => ?_⟩
  · rw [exec_frame_open hc hrx he ho, code_assembled hbytes, decode_assembled hn hbytes, if_pos (.inr hcheck)]
    rfl
  · rw [exec_frame_open hc hrx he ho, code_assembled hbytes, decode_assembled hn hbytes, any_err_bodyChars,
      if_neg (by simp [hcheck]), requestOf_eq_none hr]
    rfl
  · subst hcode
    have hdec : exec c s = frameOutcome l r.code s (decodeRequest l r payload) := by
      rw [exec_frame_open hc hrx he ho, code_assembled hbytes, decode_assembled hn hbytes, any_err_bodyChars,
        if_neg (by simp [hcheck]), requestOf_eq_some hl]
    refine ⟨fun h => ?_, fun h => ?_, fun i h => ?_⟩
    · rw [hdec, h]; rfl
    · rw [hdec, h]; rfl
    · rw [hdec, h]; rfl
  · have hbytes : chars.map (·.byte) = frameBody code payload check := hchars.trans hbytes
    have herr : chars.any (·.err) = true := List.any_eq_true.2 herr
    rw [exec_frame_open hi hrx (endsFrame_assembled hn hbytes) ho, code_assembled hbytes, decode_assembled hn hbytes,
      if_pos (.inl herr)]
    rfl
  · subst hchars
    obtain ⟨he, hcode, hdec⟩ := decode_tooLong (code := code) hlong h16 l
    have hi : CarriesChars i l (startChar :: bodyChars (code :: b16 n)) := hi
    refine ⟨exec_frame_busy hi hrx he, fun ho => ?_⟩
    rw [exec_frame_open hi hrx he ho, hcode, hdec]
    rfl

end Sys2Proof.Machine
end

section
/-! PROOFS. The reads (section 10.4 and the read rules of chapters 1 to 9): what each returns, and what a clear set clears. -/

namespace Sys2Proof.Machine

/-! ### Reads that return their record as held -/

/-- A read on an open link returns what its record gives; taking the request leaves the record. -/
theorem exec_read {c : Instr} {l : LinkId} {r : Request} {record : State → List Byte}
    (hc : served c = some ⟨l, r, .good, fun s => accept s (record s)⟩) {s : State} (ho : (s.link l).isOpen = true)
    (hl : r.onLink l = true) (hrecord : record (s.awaited l r) = record s) :
    exec c s = .next (s.responded l r .ok (record s)) :=
  (exec_served hc s).trans (congrArg _ (request_answers ho hl (congrArg (accept _) hrecord) ((isOpen_iff _).1 ho).2.2))

theorem identifyRecord_eq (l : LinkId) : identifyRecord l = ([0x48, 0x1C] : List Byte) ++
    (Config.revision.setWidth 8 :: if Config.revisionWide then [(Config.revision >>> 8).setWidth 8] else []) ++
    ([(match l with | .p => 0 | .d => 1 | .w => 2), 8, 0, 1] : List Byte) ++
    ([0, 0, 1] ++ List.replicate Config.cellsExtra 0) ++ [32, 16, 128, 96, 128, 8, 8, 64, 4, 4, 0, 16] := by
  cases l <;> simp [identifyRecord, Config.revisionField, Config.cellsField, b16, b8, linkCode]

/-- R94: the records of WEFT-PLAN while the plans are not withheld. -/
theorem planRecords_of_shown {s : State} (h : s.wft.withheld = false) :
    bList (fun r => bPlan r.1 r.2) (planRecords s) =
      b8 ((if s.pendingPlan.isSome then 1 else 0) + if s.xpe.staging.plan.isSome then 1 else 0) ++
        s.pendingPlan.elim [] (bPlan 0) ++ s.xpe.staging.plan.elim [] (bPlan 1) := by
  cases hp : s.pendingPlan <;> cases hq : s.xpe.staging.plan <;> simp [planRecords, bList, h, hp, hq]

/-- Settles O16: each of the requests is a read. -/
theorem readRequestsChangeNothing : Obligations.ReadRequestsChangeNothing := by
  refine ⟨identifyRecord_eq, fun s => ⟨fun l ho => exec_read (c := .identify l) rfl ho (by cases l <;> rfl) rfl,
    fun ho => ⟨?_, ?_, ?_, ?_, ?_⟩, fun ho => ⟨fun h => ?_, fun h p q hp hq => ?_⟩⟩⟩
  · exact exec_read (c := .readStatus) rfl ho rfl rfl
  · exact exec_read (c := .readSchedule) rfl ho rfl rfl
  · exact exec_read (c := .readStore) rfl ho rfl rfl
  · refine (exec_read (c := .readHarness) rfl ho rfl rfl).trans ?_
    rw [harnessRecord, bList, List.append_assoc]
  · refine (exec_read (c := .readChanges) rfl ho rfl rfl).trans ?_
    rw [changesRecord, bList]
  · refine (exec_read (c := .weftPlan) rfl ho rfl rfl).trans ?_
    simp only [planRecords, if_pos h]
    rfl
  · refine (exec_read (c := .weftPlan) rfl ho rfl rfl).trans ?_
    rw [planRecords_of_shown h, hp, hq]
    cases p <;> cases q <;> rfl

/-! ### MOTION FORWARD and READINESS -/

theorem forwardRefusal_awaited (s : State) (l : LinkId) (r : Request) :
    (s.awaited l r).forwardRefusal = s.forwardRefusal := by cases l <;> rfl

/-- R120, with its answer: FORWARD and RUNNING. -/
theorem exec_motionForward {s : State} (ho : s.dlk.isOpen = true) : exec .motionForward s = .next
    (s.forwardRefusal.elim ((grantForward s).responded .d .motion .ok [1, 3]) fun r => s.responded .d .motion r []) := by
  refine congrArg Host.Outcome.next ?_
  have howner : motionForward (s.awaited .d .motion) = s.forwardRefusal.elim
      (accept ((grantForward s).awaited .d .motion) [1, 3]) (refuse (s.awaited .d .motion)) := by
    rw [motionForward, forwardRefusal_awaited]
    cases s.forwardRefusal <;> rfl
  cases h : s.forwardRefusal with
  | some r => rw [h] at howner; exact request_refuses ho rfl howner
  | none => rw [h] at howner; exact request_answers ho rfl howner ((isOpen_iff s.dlk).1 ho).2.2

theorem inStartZone_iff (a : Ang) : a.inStartZone = true ↔
    a.index = .indexed ∧ (a.sched.latch : Int) ≤ a.count ∧ a.count < (a.sched.opening : Int) := by
  simp [Ang.inStartZone, and_assoc]

/-- R120: the checks in their order, with what follows a refusal and what follows a pass. -/
theorem forwardRefusal_elim {α : Type} (s : State) (granted : α) (refused : Status → α) :
    s.forwardRefusal.elim granted refused =
      if s.seq.state = .presenting then refused .busy
      else if s.seq.state ≠ .ready then refused .wrongState
      else if s.seq.grant ≠ .none then refused .wrongState
      else if s.ang.rest ≠ .atRest then refused .wrongState
      else if ¬(s.ang.index = .indexed ∧ (s.ang.sched.latch : Int) ≤ s.ang.count ∧
          s.ang.count < (s.ang.sched.opening : Int)) then refused .wrongAngle
      else if s.grd.warp = true then refused .causeActive
      else if s.pendingFeeder = none then refused .noFeeder
      else granted := by
  have hzone : (s.ang.inStartZone = false) = ¬(s.ang.index = .indexed ∧ (s.ang.sched.latch : Int) ≤ s.ang.count ∧
      s.ang.count < (s.ang.sched.opening : Int)) := by
    rw [← inStartZone_iff]; simp
  rw [← motionRefusal_elim s _ refused, State.forwardRefusal]
  cases s.motionRefusal with
  | some r => rfl
  | none => simp only [apply_ite (Option.elim · granted refused), Option.elim_some, Option.elim_none, hzone]

theorem grant_of_forwardRefusal {s : State} (h : s.forwardRefusal = none) : s.seq.grant = .none := by
  refine Decidable.byContradiction fun hg => ?_
  have hpass := forwardRefusal_elim s True fun _ => False
  rw [h] at hpass
  simp [hg] at hpass

/-- Settles O22: the owner's checks, on a link that takes the request. -/
theorem forwardGrantedAfterChecks : Obligations.ForwardGrantedAfterChecks := by
  intro s ho
  rw [exec_motionForward ho, forwardRefusal_elim]
  rfl

theorem maskOf_succ (n : Nat) (f : Nat → Bool) : maskOf (n + 1) f = if f n then maskOf n f + 2 ^ n else maskOf n f := by
  simp [maskOf, List.range_succ]

theorem maskOf_lt (n : Nat) (f : Nat → Bool) : maskOf n f < 2 ^ n := by
  induction n with
  | zero => simp [maskOf]
  | succ n ih => rw [maskOf_succ]; split <;> omega

/-- The bits of a mask are the members. -/
theorem testBit_maskOf (n k : Nat) (f : Nat → Bool) : (maskOf n f).testBit k = (decide (k < n) && f k) := by
  induction n with
  | zero => simp [maskOf]
  | succ n ih =>
    have hlt := maskOf_lt n f
    rw [maskOf_succ]
    rcases Nat.lt_trichotomy k n with h | h | h
    · have h' : k < n + 1 := by omega
      split
      · rw [Nat.add_comm, Nat.testBit_two_pow_add_gt h, ih]; simp [h, h']
      · rw [ih]; simp [h, h']
    · subst h
      have hbit : (maskOf k f).testBit k = false := Nat.testBit_lt_two_pow hlt
      split
      next hf => rw [Nat.add_comm, Nat.testBit_two_pow_add_eq, hbit]; simp [hf]
      next hf => rw [hbit]; simp [hf]
    · have h' : ¬k < n + 1 := by omega
      have hpow : 2 ^ (n + 1) ≤ 2 ^ k := Nat.pow_le_pow_right (by decide) h
      rw [Nat.testBit_lt_two_pow (by split <;> omega)]
      simp [h']

theorem code_ne_absent (st : Status) : st.code ≠ 255 := by cases st <;> decide

/-- Settles O19: the record as it is laid out; its last byte by the refusal that a FORWARD has. -/
theorem readinessReportsForwardRefusal : Obligations.ReadinessReportsForwardRefusal := by
  intro s ho
  have hread := exec_read (c := .readiness) rfl ho rfl rfl
  refine ⟨BitVec.ofNat 8 (maskOf 7 fun k => [s.seq.coasting, s.seq.runDown, s.grd.stopRequest,
    decide (s.ang.index = .indexed), decide (s.ang.rest = .atRest), s.latchedBelongs, s.pendingFeeder.isSome].getD k false),
    s.forwardRefusal.elim 255 Status.code, ?_, ?_⟩
  · rw [hread, readinessRecord]
    cases s.forwardRefusal <;> rfl
  · simp only [BitVec.getLsbD_ofNat, testBit_maskOf]
    refine ⟨by simp, by simp, by simp, by simp, by simp, by simp, ?_, by simp, ?_⟩
    · simp [Option.isSome_iff_ne_none]
    · rw [exec_motionForward ho]
      cases h : s.forwardRefusal with
      | some r =>
        refine ⟨⟨fun e => absurd e (code_ne_absent r), ?_⟩, fun _ => ⟨r, rfl, rfl⟩⟩
        rintro ⟨t, e, ht, hs⟩
        injection e with e
        rw [← e, Option.elim_some, responded_seq, hs] at ht
        cases ht
      | none => exact ⟨⟨fun _ => ⟨_, rfl, rfl, grant_of_forwardRefusal h⟩, fun _ => rfl⟩, fun e => absurd rfl e⟩

/-! ### Reads that name what they read -/

/-- An owner that makes one check, then accepts with a state that it may also reach before the frame is taken. -/
theorem request_checks {l : LinkId} {s u : State} {r : Request} {owner : State → State × Reply} {c : Prop} [Decidable c]
    {p : List Byte} {st : Status} (ho : (s.link l).isOpen = true) (hl : r.onLink l = true) (hu : u.link l = s.link l)
    (h : owner (s.awaited l r) = if c then accept (u.awaited l r) p else refuse (s.awaited l r) st) :
    request l r .good owner s = if c then u.responded l r .ok p else s.responded l r st [] := by
  by_cases hc : c
  · rw [if_pos hc] at h ⊢
    exact request_answers ho hl h (hu ▸ ((isOpen_iff _).1 ho).2.2)
  · rw [if_neg hc] at h ⊢
    exact request_refuses ho hl h

section
variable {s : State} {i : Fin 8} {d : Design}

theorem readFigure_held (hx : (s.slot i).state ≠ .empty) (hd : s.design i = some d) (c j n : Nat) :
    readFigure i.1 c j n s = if c < d.height ∧ j < d.width ∧ c * d.width + j + n ≤ d.height * d.width then
      accept s (bCells (d.readRun c j n)) else refuse s .badArgument := by
  have hd : (s.slot i).design = some d := hd
  rw [readFigure, withSlot_fin, hd]
  cases hs : (s.slot i).state with
  | empty => exact absurd hs hx
  | loading | valid => simp only [runFits_iff]

theorem readCards_held (hx : (s.slot i).state ≠ .empty) (hd : s.design i = some d) (c n : Nat) :
    readCards i.1 c n s = if c + n ≤ d.height then accept s (d.readCards c n) else refuse s .badArgument := by
  have hd : (s.slot i).design = some d := hd
  rw [readCards, withSlot_fin, hd]
  cases hs : (s.slot i).state with
  | empty => exact absurd hs hx
  | loading | valid => rfl

theorem readFigure_empty (hx : (s.slot i).state = .empty) (c j n : Nat) :
    readFigure i.1 c j n s = refuse s .wrongState := by
  rw [readFigure, withSlot_fin, hx]

theorem readCards_empty (hx : (s.slot i).state = .empty) (c n : Nat) :
    readCards i.1 c n s = refuse s .wrongState := by
  rw [readCards, withSlot_fin, hx]

end

theorem exec_readFigure {s : State} {n : Nat} (h1 : 1 ≤ n) (h2 : n ≤ 8000) (i c j : Nat) :
    exec (.readFigure i c j n) s = .next (request .p .readFigure .good (readFigure i c j n) s) :=
  congrArg (fun k => Host.Outcome.next (request .p .readFigure k (readFigure i c j n) s)) (countCheck_good h1 h2)

theorem exec_readCards {s : State} {n : Nat} (h1 : 1 ≤ n) (h2 : n ≤ 512) (i c : Nat) :
    exec (.readCards i c n) s = .next (request .p .readCards .good (readCards i c n) s) :=
  congrArg (fun k => Host.Outcome.next (request .p .readCards k (readCards i c n) s)) (countCheck_good h1 h2)

/-- R191 and R25: a count that is none, and a slot that is none, are BAD-ARGUMENT. -/
theorem request_badRun {s : State} (ho : s.plk.isOpen = true) {r : Request} {most i n : Nat} {owner : State → State × Reply} (hl : r.onLink .p = true)
    (hout : 8 ≤ i → owner (s.awaited .p r) = refuse (s.awaited .p r) .badArgument) (h : 8 ≤ i ∨ n = 0 ∨ most < n) :
    request .p r (countCheck 1 most n) owner s = s.responded .p r .badArgument [] := by
  by_cases hi : 8 ≤ i
  · exact request_badArgument_anyCheck ho hl (countCheck_ne_frameError _ _ _) (hout hi)
  · rw [countCheck_badArgument (by omega)]
    exact request_badArgument owner ho hl

/-- Settles O20, each read by the checks of its owner, behind those of the link. -/
theorem namedReadsReturnContents : Obligations.NamedReadsReturnContents := by
  intro s ho
  refine ⟨fun i d c j n hx hd h1 h2 => ?_, fun i d c n hx hd h1 h2 => ?_, fun i c j n hx h1 => ⟨fun h2 => ?_, fun h2 => ?_⟩,
    fun i c j n h => congrArg _ (request_badRun ho rfl (fun hi => withSlot_outside hi ..) h),
    fun i c n h => congrArg _ (request_badRun ho rfl (fun hi => withSlot_outside hi ..) h), fun v => ?_, fun v hv => ?_,
    fun depth n => ?_⟩
  · rw [exec_readFigure h1 h2]
    exact congrArg _ (request_checks (l := .p) ho rfl rfl (readFigure_held (s := s.awaited .p .readFigure) hx hd c j n))
  · rw [exec_readCards h1 h2]
    exact congrArg _ (request_checks (l := .p) ho rfl rfl (readCards_held (s := s.awaited .p .readCards) hx hd c n))
  · rw [exec_readFigure h1 h2]
    exact congrArg _ (request_refuses (l := .p) ho rfl (readFigure_empty (s := s.awaited .p .readFigure) hx c j n))
  · rw [exec_readCards h1 h2]
    exact congrArg _ (request_refuses (l := .p) ho rfl (readCards_empty (s := s.awaited .p .readCards) hx c n))
  · refine congrArg _ (request_answers (l := .p) ho rfl ?_ ((isOpen_iff _).1 ho).2.2)
    rw [readWeave, member, dif_pos v.isLt]
    rfl
  · refine congrArg _ (request_refuses (l := .p) ho rfl ?_)
    rw [readWeave, member, dif_neg (Nat.not_lt.2 hv)]
  · by_cases hn : n = 0
    · subst hn
      rw [if_neg (by omega)]
      exact congrArg _ (request_badArgument (l := .p) _ ho rfl)
    · have hcheck : exec (.readHistory depth n) s = .next (request .p .readHistory .good (readHistory depth n) s) :=
        congrArg (fun k => Host.Outcome.next (request .p .readHistory k (readHistory depth n) s)) (if_neg hn)
      rw [hcheck]
      refine congrArg _ (request_checks (l := .p) ho rfl rfl ?_)
      rw [readHistory, awaited_seq, Seq.entries]
      simp only [List.length_take, List.length_drop, List.length_reverse]

/-! ### Reads that clear -/

theorem exec_readWeft {l : LinkId} {faulted totals : BitVec 8} {extra stray : Bool} {s : State}
    (ho : (s.link l).isOpen = true) (hl : Request.readWeft.onLink l = true)
    (h : ¬(l = .w ∧ ¬(faulted = 0 ∧ totals = 0 ∧ extra = false ∧ stray = false))) :
    exec (.readWeft l faulted totals extra stray) s = .next
      (({ s with wft := s.wft.clear faulted totals extra stray }).responded l .readWeft .ok (weftRecord s.wft)) := by
  refine congrArg Host.Outcome.next (request_answers ho hl ?_ ?_)
  · rw [readWeft, if_neg h]
    cases l <;> rfl
  · cases l <;> exact ((isOpen_iff _).1 ho).2.2

theorem get_clear (w : Wft) (faulted totals : BitVec 8) (extra stray : Bool) (f : Fin 8) :
    (w.clear faulted totals extra stray).feeders.get f = { w.feeders.get f with
      faulted := !faulted.getLsbD f.1 && (w.feeders.get f).faulted
      total := if totals.getLsbD f.1 then 0 else (w.feeders.get f).total } := by
  simp only [Wft.clear, get_ofFn, Feeder.clear]
  cases faulted.getLsbD f.1 <;> rfl

theorem modulesOk_iff (clear : List Nat) : modulesOk clear = true ↔ ∀ m ∈ clear, m < 96 := by
  rw [modulesOk, List.all_eq_true]
  exact forall₂_congr fun m _ => decide_eq_true_iff

theorem all_idx (x : Trigger) : Trigger.all[x.idx.1]? = some x := by cases x <;> rfl

theorem idx_injective {x y : Trigger} (h : x.idx = y.idx) : x = y :=
  Option.some.inj ((all_idx x).symm.trans (h ▸ all_idx y))

theorem any_idx_iff (clear : List Trigger) (x : Trigger) : (clear.any fun t => t.idx = x.idx) = true ↔ x ∈ clear := by
  simp only [List.any_eq_true, decide_eq_true_eq]
  exact ⟨fun ⟨y, hy, e⟩ => idx_injective e ▸ hy, fun h => ⟨x, h, rfl⟩⟩

theorem get_clearTotals (g : Grd) (clear : List Trigger) (x : Trigger) :
    (g.clearTotals clear).totals.get x.idx = if x ∈ clear then 0 else g.totals.get x.idx := by
  simp only [Grd.clearTotals, get_ofFn, any_idx_iff]

/-- Settles O21, each read by its owner: the record before the clear, and the clear. -/
theorem clearingReadsReturnOldValues : Obligations.ClearingReadsReturnOldValues := by
  intro s
  refine ⟨fun l faulted totals extra stray ho => ⟨fun hl => ?_, fun hl h => ?_, fun h => ⟨_, ?_, get_clear _ _ _ extra stray⟩⟩,
    fun ho clear => ⟨fun h => ⟨_, ?_, fun m => get_ofFn ..⟩, fun ⟨m, hm, h⟩ => ?_⟩,
    fun ho clear => ⟨_, ?_, get_clearTotals s.grd clear⟩⟩
  · subst hl
    exact congrArg _ (request_unknown _ _ ho rfl)
  · subst hl
    exact congrArg _ (request_refuses ho rfl (if_pos ⟨rfl, h⟩))
  · rcases h with hp | ⟨hw, h⟩
    · exact exec_readWeft ho (by rw [hp]; rfl) fun hw => by rw [hp] at hw; cases hw.1
    · exact exec_readWeft ho (by rw [hw]; rfl) fun hn => hn.2 h
  · exact congrArg _ (request_answers (l := .p)
      (u := { s with hcc := { s.hcc with echoErrors := clearErrors clear s.hcc.echoErrors } }) ho rfl
      (if_pos ((modulesOk_iff clear).2 h)) ((isOpen_iff _).1 ho).2.2)
  · exact congrArg _ (request_refuses (l := .p) ho rfl (if_neg fun hok => Nat.not_lt.2 h ((modulesOk_iff clear).1 hok m hm)))
  · exact congrArg _ (request_answers (l := .p) (u := { s with grd := s.grd.clearTotals clear }) ho rfl rfl ((isOpen_iff _).1 ho).2.2)

end Sys2Proof.Machine
end

section
/-! PROOFS. The tables of the shared reads: planning (R81), the plain advance (R58), the lift of a hook (R43 to R46, R63). -/

namespace Sys2Proof.Machine

/-! ### Planning -/

theorem readyOf_some (w : Wft) (f : Fin 8) : w.readyOf (some f) = if (w.feeders.get f).state = .ready then some f else none := by
  simp [Wft.readyOf, Wft.isReady, Option.filter]

/-- A partner that is absent or not READY is none. -/
theorem readyOf_eq_none {w : Wft} {o : Option (Fin 8)} (h : ∀ q, o = some q → (w.feeders.get q).state ≠ .ready) :
    w.readyOf o = none := by
  cases o with
  | none => rfl
  | some q => rw [readyOf_some, if_neg (h q rfl)]

/-- R81: the choice of a group that has a primary, by the two feeders that are READY. -/
def chosenOf (w : Wft) (g : Fin 8) (x y : Option (Fin 8)) : Choice :=
  match x, y, (w.groups.get g).mode, (w.groups.get g).alternation with
  | some p, some _, .single, a => ⟨some p, some ⟨g, a⟩, w⟩
  | some p, some _, .alternate, .primaryNext => ⟨some p, some ⟨g, .primaryNext⟩, w.setAlternation g .partnerNext⟩
  | some _, some q, .alternate, .partnerNext => ⟨some q, some ⟨g, .partnerNext⟩, w.setAlternation g .primaryNext⟩
  | x, y, _, a => ⟨x.or y, some ⟨g, a⟩, w⟩

theorem choose_colour {w : Wft} {g p : Fin 8} (hp : (w.groups.get g).primary = some p) {x y : Option (Fin 8)}
    (hx : w.readyOf (some p) = x) (hy : w.readyOf (w.groups.get g).partner = y) :
    w.choose (.colour g) = chosenOf w g x y := by
  rw [Wft.choose, if_neg (by simp [hp]), hp, hx, hy]
  cases hm : (w.groups.get g).mode <;> cases ha : (w.groups.get g).alternation <;> cases x <;> cases y <;>
    simp [chosenOf, hm, ha]

/-- Settles O36, by which of the two feeders of the group are READY. -/
theorem planningChoosesReadyFeeder : Obligations.PlanningChoosesReadyFeeder := by
  intro w
  refine ⟨fun f => by rw [Wft.choose, readyOf_some], fun g => ⟨_, rfl, fun hp => ?_, fun p q hp hq hpr hqr => ?_,
    fun p hp hpr hq => ?_, fun p q hp hq hpr hqr => ?_, fun p hp hpr hq => ?_⟩⟩
  · rw [Wft.choose, if_pos hp]
  · rw [choose_colour hp ((readyOf_some ..).trans (if_pos hpr)) (by rw [hq, readyOf_some, if_pos hqr])]
    cases hm : (w.groups.get g).mode <;> cases ha : (w.groups.get g).alternation <;> 
      simp [chosenOf, hm, ha, Wft.setAlternation]
  · rw [choose_colour hp ((readyOf_some ..).trans (if_pos hpr)) (readyOf_eq_none hq)]
    rfl
  · rw [choose_colour hp ((readyOf_some ..).trans (if_neg hpr)) (by rw [hq, readyOf_some, if_pos hqr])]
    rfl
  · rw [choose_colour hp ((readyOf_some ..).trans (if_neg hpr)) (readyOf_eq_none hq)]
    rfl

/-! ### The plain advance -/

theorem advance_repeats {s : State} {c : Cursor} (h : c.rep + 1 < (s.cardOf c).pickRepeat) :
    s.advance c = ({ c with rep := c.rep + 1, phase := c.phase + 1, serial := c.serial + 1 }, false) := if_pos h

theorem advance_steps {s : State} {c : Cursor} {d : Design} (h : (s.cardOf c).pickRepeat ≤ c.rep + 1)
    (hd : s.design c.slot = some d) :
    s.advance c = ({ c with
        card := (d.forward ((c.card + 1) % d.height)).1
        rep := 0
        pass := if c.card + 1 = d.height ∨ (d.forward ((c.card + 1) % d.height)).2 = true then c.pass + 1 else c.pass
        phase := c.phase + 1
        serial := c.serial + 1 },
      decide (c.card + 1 = d.height ∨ (d.forward ((c.card + 1) % d.height)).2 = true)) := by
  rw [State.advance, if_neg (Nat.not_lt.2 h), hd]
  simp

/-- R34: the first non-void card from `c` on, when it comes before the end of the design. -/
theorem forward_ahead {d : Design} {c k : Nat} (hk : c + k < d.height) (hv : (d.card (c + k)).void = false)
    (hb : ∀ j, j < k → (d.card (c + j)).void = true) : d.forward c = (c + k, false) := by
  have hfind : (List.range' c (d.height - c)).find? d.nonVoid = some (c + k) := by
    rw [List.find?_range'_eq_some]
    refine ⟨by simp [Design.nonVoid, hv], by simp; omega, fun j hj hlt => ?_⟩
    obtain ⟨i, rfl⟩ := Nat.exists_eq_add_of_le hj
    simp [Design.nonVoid, hb i (by omega)]
  rw [Design.forward, hfind]

/-- R34: the first non-void card, when the search passes the end of the design. -/
theorem forward_around {d : Design} {c k : Nat} (hc : c ≤ d.height) (hk : k < c) (hv : (d.card k).void = false)
    (hahead : ∀ j, c ≤ j → j < d.height → (d.card j).void = true) (hb : ∀ j, j < k → (d.card j).void = true) :
    d.forward c = (k, true) := by
  have hnone : (List.range' c (d.height - c)).find? d.nonVoid = none := by
    rw [List.find?_eq_none]
    intro j hj
    rw [List.mem_range'_1] at hj
    simp [Design.nonVoid, hahead j hj.1 (by omega)]
  have hfind : (List.range c).find? d.nonVoid = some k := by
    rw [List.find?_range_eq_some]
    refine ⟨by simp [Design.nonVoid, hv], by simpa using hk, fun j hj => by simp [Design.nonVoid, hb j hj]⟩
  rw [Design.forward, hnone, hfind]

/-- R34: the first non-void card from `c` on, around the end of the design. -/
theorem forward_mod {d : Design} {c k : Nat} (hc : c < d.height) (hk : k < d.height)
    (hv : (d.card ((c + k) % d.height)).void = false)
    (hb : ∀ j, j < k → (d.card ((c + j) % d.height)).void = true) :
    d.forward c = ((c + k) % d.height, decide (d.height ≤ c + k)) := by
  have hnear : ∀ j, c + j < d.height → (c + j) % d.height = c + j := fun j hj => Nat.mod_eq_of_lt hj
  have hpast : ∀ j, j < d.height → d.height ≤ c + j → (c + j) % d.height = c + j - d.height :=
    fun j hj hle => by rw [Nat.mod_eq_sub_mod hle, Nat.mod_eq_of_lt (by omega)]
  by_cases hle : d.height ≤ c + k
  · rw [hpast k hk hle] at hv ⊢
    rw [forward_around (k := c + k - d.height) (Nat.le_of_lt hc) (by omega) hv (fun j hj hlt => ?_) fun j hj => ?_,
      decide_eq_true hle]
    · have := hb (j - c) (by omega)
      rwa [hnear _ (by omega), show c + (j - c) = j by omega] at this
    · have := hb (j + d.height - c) (by omega)
      rwa [hpast _ (by omega) (by omega), show c + (j + d.height - c) - d.height = j by omega] at this
  · rw [hnear k (by omega)] at hv ⊢
    rw [forward_ahead (by omega) hv fun j hj => by have := hb j hj; rwa [hnear j (by omega)] at this,
      decide_eq_false hle]

/-- Settles O48: a repeat, or the search of `forward_mod` from the card after the cursor's. -/
theorem plainAdvanceStepsCursor : Obligations.PlainAdvanceStepsCursor := by
  intro s c
  refine ⟨advance_repeats, fun d k hr hd hc hk hv hb => ?_⟩
  have hfor := forward_mod (c := (c.card + 1) % d.height) (Nat.mod_lt _ (by omega)) hk
    (by rwa [Nat.mod_add_mod]) fun j hj => by rw [Nat.mod_add_mod]; exact hb j hj
  rw [advance_steps hr hd, hfor, Nat.mod_add_mod]
  by_cases hlast : c.card + 1 = d.height
  · simp [hlast]
  · simp [hlast, Nat.mod_eq_of_lt (show c.card + 1 < d.height by omega)]

/-! ### The lift of a hook -/

theorem holdsHook_iff (r : SectionRecord) (h : Nat) : holdsHook r h = true ↔ firstHook r ≤ h ∧ h ≤ lastHook r := by
  simp [holdsHook]

/-- R43: no section holds the hook. -/
theorem governing_eq_none {m : Hmp} {h : Nat} (hn : ∀ n r, m.sections.get n = some r → holdsHook r h = false) :
    m.governing h = none := by
  rw [Hmp.governing, List.findSome?_eq_none_iff]
  intro o ho
  obtain ⟨n, hlt, rfl⟩ := List.mem_iff_getElem.1 ho
  cases hr : m.sections.toList[n] with
  | none => rfl
  | some r =>
    have hget : m.sections.get ⟨n, by simpa using hlt⟩ = some r := by simpa [get_eq] using hr
    simp [hn _ r hget]

/-- R43: the lowest-numbered section that holds the hook governs it. -/
theorem governing_eq_some {m : Hmp} {h : Nat} {n : Fin 16} {r : SectionRecord} (hr : m.sections.get n = some r)
    (hh : holdsHook r h = true) (hlow : ∀ k, k < n → ∀ q, m.sections.get k = some q → holdsHook q h = false) :
    m.governing h = some r := by
  rw [Hmp.governing, List.findSome?_eq_some_iff]
  have hlen : n.1 < m.sections.toList.length := by simp
  refine ⟨m.sections.toList.take n.1, some r, m.sections.toList.drop (n.1 + 1), ?_, by simp [hh], fun o ho => ?_⟩
  · have hget : m.sections.toList[n.1] = some r := by simpa [get_eq] using hr
    rw [← hget, List.getElem_cons_drop, List.take_append_drop]
  · obtain ⟨k, hlt, rfl⟩ := List.mem_iff_getElem.1 ho
    rw [List.length_take] at hlt
    rw [List.getElem_take]
    cases hq : m.sections.toList[k]'(by omega) with
    | none => rfl
    | some q =>
      have hk : k < 16 := by omega
      have hget : m.sections.get ⟨k, hk⟩ = some q := by simpa [get_eq] using hq
      simp [hlow ⟨k, hk⟩ (by show k < n.1; omega) q hget]

theorem weave_fin (s : State) (v : Fin 32) : s.weave v.1 = s.wlb.get v := by simp [State.weave, member]

/-- Settles O33, by the section that governs the hook. -/
theorem hookLiftFollowsMap : Obligations.HookLiftFollowsMap := by
  intro s c h
  refine ⟨fun hd => if_pos hd, fun hn => ?_, fun n r hr h1 h2 hlow hd => ?_⟩
  · have hg : s.hmp.governing h = none := governing_eq_none fun n r hr => by
      refine Bool.eq_false_iff.2 fun hh => ?_
      refine hn n (firstHook r) (lastHook r) ?_ ((holdsHook_iff r h).1 hh)
      cases r with
      | down f l => exact .inl hr
      | fixed f l v w => exact .inr (.inl ⟨v, w, hr⟩)
      | figure f l t d a z w => exact .inr (.inr ⟨t, d, a, z, w, hr⟩)
    rw [State.lift, hg]
    split <;> rfl
  · have hg : s.hmp.governing h = some r := governing_eq_some hr ((holdsHook_iff r h).2 ⟨h1, h2⟩) fun m hm q hq =>
      Bool.eq_false_iff.2 fun hh => hlow m hm q hq ((holdsHook_iff q h).1 hh)
    rw [State.lift, if_neg hd, hg]
    refine ⟨fun f l e => by rw [e], fun f l v w e => ?_, fun f l t d a z w g i k step v e hdes hi hw hk hstep hv => ?_⟩
    · rw [e]
      show (s.weave v.1).lift _ _ = _
      rw [weave_fin, Weave.lift]
    · have hcol : g.map.get (g.cell c.card (designColumn t d a z g.width i)).toFin = v.1 := by
        rw [← hv]
        subst hstep hk
        cases d <;> cases t <;> rfl
      rw [e]
      simp only [hdes]
      rw [← hi, hcol, weave_fin, Weave.lift]

end Sys2Proof.Machine
end

section
/-! PROOFS. Requests that write on the P-link: the map writes in UNLOADED (R39, R48 to R51), the change unit (R146, R147, R149,
R150), COMMIT-DESIGN with its scan (R26, R27). -/

namespace Sys2Proof.Machine

/-! ### Requests at an open link -/

section
variable {c : Instr} {l : LinkId} {r : Request} {owner : State → State × Reply} {s : State}
  (hc : served c = some ⟨l, r, .good, owner⟩) (ho : (s.link l).isOpen = true) (hl : r.onLink l = true)
include hc ho hl

/-- The owner answers with a state that it may also reach before the frame is taken. -/
theorem exec_answers {u : State} {st : Status} {p : List Byte} (hu : u.link l = s.link l)
    (h : owner (s.awaited l r) = (u.awaited l r, .now ⟨st, p⟩)) : exec c s = .next (u.responded l r st p) :=
  (exec_served hc s).trans (congrArg _ (request_answers ho hl h (hu ▸ ((isOpen_iff _).1 ho).2.2)))

theorem exec_refuses {st : Status} (h : owner (s.awaited l r) = refuse (s.awaited l r) st) :
    exec c s = .next (s.responded l r st []) :=
  (exec_served hc s).trans (congrArg _ (request_refuses ho hl h))

theorem exec_checks {u : State} {q : Prop} [Decidable q] {p : List Byte} {st : Status} (hu : u.link l = s.link l)
    (h : owner (s.awaited l r) = if q then accept (u.awaited l r) p else refuse (s.awaited l r) st) :
    exec c s = .next (if q then u.responded l r .ok p else s.responded l r st []) :=
  (exec_served hc s).trans (congrArg _ (request_checks ho hl hu h))

theorem exec_waits {u : State} (h : owner (s.awaited l r) = (u, .later)) : exec c s = .next u :=
  (exec_served hc s).trans (congrArg _ (request_waits ho hl h))

end

theorem member_fin {n : Nat} (i : Fin n) : member n i.1 = some i := dif_pos i.isLt

theorem member_outside {n k : Nat} (h : n ≤ k) : member n k = none := dif_neg (Nat.not_lt.2 h)

/-! ### Map writes -/

theorem mapWritten_of_ne {s : State} (h : s.seq.state ≠ .ready) : mapWritten s = s := if_neg h

theorem setSection_outside {n : Nat} (h : 16 ≤ n) (r : Option SectionRecord) (s : State) :
    setSection n r s = refuse s .badArgument := by
  rw [setSection, member_outside h]

theorem setSection_fin (n : Fin 16) (r : Option SectionRecord) (s : State) : setSection n.1 r s =
    if s.writable = true then
      if sectionArgOk r = true then
        accept (mapWritten { s with hmp := { s.hmp with sections := upd s.hmp.sections n r } }) []
      else refuse s .badArgument
    else refuse s .wrongState := by
  rw [setSection, member_fin]

theorem defineWeave_outside {v : Nat} (hv : 32 ≤ v) (w h : Nat) (lifts : List Bool) (s : State) :
    defineWeave v w h lifts s = refuse s .badArgument := by
  rw [defineWeave, member_outside hv]

theorem defineWeave_held {v : Fin 32} {s : State} (h : s.heldNaming v.1 ≠ []) (w n : Nat) (lifts : List Bool) :
    defineWeave v.1 w n lifts s = refuse s .held := by
  rw [defineWeave, member_fin]
  exact if_pos h

/-- R39 once the entry is not held: a FIXED section that names it makes the request a map write. -/
theorem defineWeave_free {v : Fin 32} {s : State} (h : s.heldNaming v.1 = []) (w n : Nat) (lifts : List Bool) :
    defineWeave v.1 w n lifts s =
      if s.hmp.fixedNaming v.1 ≠ [] ∧ ¬s.writable = true then refuse s .wrongState
      else if 1 ≤ w ∧ w ≤ 32 ∧ 1 ≤ n ∧ n ≤ 32 then
        accept (if s.hmp.fixedNaming v.1 ≠ [] then mapWritten { s with wlb := upd s.wlb v ⟨w, n, lifts⟩ }
          else { s with wlb := upd s.wlb v ⟨w, n, lifts⟩ }) []
      else refuse s .badArgument := by
  rw [defineWeave, member_fin]
  simp only [h, ne_eq, not_true_eq_false, if_false]
  cases hf : s.hmp.fixedNaming v.1 <;> simp

theorem exec_defineWeave {w h : Nat} {lifts : List Bool} (hl : lifts.length = w * h) (v : Nat) (s : State) :
    exec (.defineWeave v w h lifts) s = .next (request .p .defineWeave .good (defineWeave v w h lifts) s) :=
  congrArg (fun k => Host.Outcome.next (request .p .defineWeave k (defineWeave v w h lifts) s)) (if_pos hl)

theorem deadList_iff (hooks : List Nat) :
    (hooks.all (fun h => decide (h ≤ 12287)) && ascending hooks) = true ↔
      (∀ h ∈ hooks, h ≤ 12287) ∧ hooks.Pairwise (· < ·) := by
  rw [Bool.and_eq_true, ascending_iff, List.all_eq_true]
  exact and_congr_left fun _ => forall₂_congr fun _ _ => decide_eq_true_iff

theorem setDeadList_eq (hooks : List Nat) (s : State) : setDeadList hooks s =
    if s.writable = true then
      if (∀ h ∈ hooks, h ≤ 12287) ∧ hooks.Pairwise (· < ·) then accept (setDead hooks s) [] else refuse s .badArgument
    else refuse s .wrongState := by
  simp only [setDeadList, deadList_iff]

theorem exec_setDeadList {hooks : List Nat} (h : hooks.length ≤ 128) (s : State) :
    exec (.setDeadList hooks) s = .next (request .p .setDeadList .good (setDeadList hooks) s) :=
  congrArg (fun k => Host.Outcome.next (request .p .setDeadList k (setDeadList hooks) s))
    (countCheck_good (Nat.zero_le _) h)

section
variable {h : Nat} (hh : h ≤ 12287)
include hh

theorem addDeadHook_eq (s : State) : addDeadHook h s =
    if s.writable = true then
      if h ∈ s.hmp.dead then accept (setDead s.hmp.dead s) (b8 s.hmp.dead.length)
      else if s.hmp.dead.length < 128 then
        accept (setDead (insertHook h s.hmp.dead) s) (b8 (insertHook h s.hmp.dead).length)
      else refuse s .noSpace
    else refuse s .wrongState := if_neg (Nat.not_lt.2 hh)

theorem removeDeadHook_eq (s : State) : removeDeadHook h s =
    if s.writable = true then accept (setDead (s.hmp.dead.filter fun x => x ≠ h) s)
      (b8 (s.hmp.dead.filter fun x => x ≠ h).length)
    else refuse s .wrongState := if_neg (Nat.not_lt.2 hh)

end

theorem not_writable {s : State} (h : s.seq.state ≠ .unloaded) (h' : ¬(s.seq.state = .ready ∧ s.seq.grant = .none)) :
    ¬s.writable = true := fun hw => (writable_iff.1 hw).elim h h'

/-! ### Map writes in UNLOADED -/

section
variable {s : State} (hu : s.seq.state = .unloaded)
include hu

theorem writable_of_unloaded : s.writable = true := writable_iff.2 (.inl hu)

theorem ne_ready_of_unloaded : s.seq.state ≠ .ready := by rw [hu]; nofun

theorem mapWritten_hmp (m : Hmp) : mapWritten { s with hmp := m } = { s with hmp := m } :=
  mapWritten_of_ne (s := { s with hmp := m }) (ne_ready_of_unloaded hu)

theorem mapWritten_wlb (v : Vector Weave 32) : mapWritten { s with wlb := v } = { s with wlb := v } :=
  mapWritten_of_ne (s := { s with wlb := v }) (ne_ready_of_unloaded hu)

theorem setSection_unloaded (n : Fin 16) (r : Option SectionRecord) : setSection n.1 r s =
    if sectionArgOk r = true then accept { s with hmp := { s.hmp with sections := upd s.hmp.sections n r } } []
    else refuse s .badArgument := by
  rw [setSection_fin, if_pos (writable_of_unloaded hu),
    mapWritten_hmp hu]

theorem setDead_unloaded (hooks : List Nat) : setDead hooks s = { s with hmp := { s.hmp with dead := hooks } } :=
  mapWritten_hmp hu _

theorem setDeadList_unloaded (hooks : List Nat) : setDeadList hooks s =
    if (∀ h ∈ hooks, h ≤ 12287) ∧ hooks.Pairwise (· < ·) then accept { s with hmp := { s.hmp with dead := hooks } } []
    else refuse s .badArgument := by
  rw [setDeadList_eq, if_pos (writable_of_unloaded hu), setDead_unloaded hu]

theorem addDeadHook_unloaded {h : Nat} (hh : h ≤ 12287) : addDeadHook h s =
    if h ∈ s.hmp.dead then accept s (b8 s.hmp.dead.length)
    else if s.hmp.dead.length < 128 then
      accept { s with hmp := { s.hmp with dead := insertHook h s.hmp.dead } } (b8 (insertHook h s.hmp.dead).length)
    else refuse s .noSpace := by
  rw [addDeadHook_eq hh, if_pos (writable_of_unloaded hu), setDead_unloaded hu, setDead_unloaded hu]

theorem removeDeadHook_unloaded {h : Nat} (hh : h ≤ 12287) : removeDeadHook h s =
    accept { s with hmp := { s.hmp with dead := s.hmp.dead.filter fun x => x ≠ h } }
      (b8 (s.hmp.dead.filter fun x => x ≠ h).length) := by
  rw [removeDeadHook_eq hh, if_pos (writable_of_unloaded hu), setDead_unloaded hu]

end

/-- DEFINE-WEAVE that is no map write, or one in UNLOADED. -/
theorem defineWeave_quiet {s : State} {v : Fin 32} (hfree : s.heldNaming v.1 = [])
    (hfix : s.hmp.fixedNaming v.1 = [] ∨ s.seq.state = .unloaded) (w h : Nat) (lifts : List Bool) :
    defineWeave v.1 w h lifts s = if 1 ≤ w ∧ w ≤ 32 ∧ 1 ≤ h ∧ h ≤ 32 then
      accept { s with wlb := upd s.wlb v ⟨w, h, lifts⟩ } [] else refuse s .badArgument := by
  rw [defineWeave_free hfree]
  rcases hfix with hfix | hu
  · simp only [hfix, ne_eq, not_true_eq_false, false_and, if_false]
  · rw [if_neg fun hn => hn.2 (writable_of_unloaded hu),  mapWritten_wlb hu, ite_self]

theorem request_tooLong {s : State} (ho : (s.link .p).isOpen = true) {hooks : List Nat} (h : 128 < hooks.length) :
    request .p .setDeadList (countCheck 0 128 hooks.length) (setDeadList hooks) s =
      s.responded .p .setDeadList .badArgument [] := by
  rw [countCheck_badArgument (by omega)]
  exact request_badArgument _ ho rfl

/-- Settles O31, each request by the checks of its owner. -/
theorem mapWritesInUnloaded : Obligations.MapWritesInUnloaded := by
  intro s ho
  replace ho : (s.link .p).isOpen = true := ho
  refine ⟨fun v w h lifts hl hv => ?_, fun n r hn => exec_refuses rfl ho rfl (setSection_outside hn ..),
    fun h hh => ⟨exec_refuses rfl ho rfl (if_pos hh), exec_refuses rfl ho rfl (if_pos hh)⟩,
    fun hooks hh => congrArg _ (request_tooLong ho hh),
    fun v w h lifts hl => ⟨fun hheld => ?_, fun hfree hfix => ?_⟩,
    fun hu => ⟨fun n r => ?_, fun hooks hh => ?_, fun h hh hm hn => ?_, fun h hh hm => ?_, fun h hh hm hn hp => ?_,
      fun h hh => ?_⟩,
    fun hu hr => ⟨fun n r => ?_, fun hooks hh => ?_, fun h hh => ⟨?_, ?_⟩, fun v w h lifts hl hfree hfix => ?_⟩⟩
  · rw [exec_defineWeave hl]
    exact congrArg _ (request_refuses ho rfl (defineWeave_outside hv ..))
  · rw [exec_defineWeave hl]
    exact congrArg _ (request_refuses ho rfl (defineWeave_held (s := s.awaited .p .defineWeave) hheld ..))
  · rw [exec_defineWeave hl]
    exact congrArg _ (request_checks ho rfl rfl (defineWeave_quiet (s := s.awaited .p .defineWeave) hfree hfix ..))
  · exact exec_checks rfl ho rfl rfl (setSection_unloaded (s := s.awaited .p .setSection) hu n r)
  · rw [exec_setDeadList hh]
    exact congrArg _ (request_checks ho rfl rfl (setDeadList_unloaded (s := s.awaited .p .setDeadList) hu hooks))
  · exact exec_refuses rfl ho rfl ((addDeadHook_unloaded (s := s.awaited .p .addDeadHook) hu hh).trans
      ((if_neg hm).trans (if_neg (Nat.not_lt.2 hn))))
  · exact exec_answers rfl ho rfl rfl ((addDeadHook_unloaded (s := s.awaited .p .addDeadHook) hu hh).trans (if_pos hm))
  · exact ⟨insertHook h s.hmp.dead, exec_answers rfl ho rfl rfl
      ((addDeadHook_unloaded (s := s.awaited .p .addDeadHook) hu hh).trans ((if_neg hm).trans (if_pos hn))),
      pairwise_insertHook h _ hp, fun x => mem_insertHook h x _⟩
  · exact exec_answers rfl ho rfl rfl (removeDeadHook_unloaded (s := s.awaited .p .removeDeadHook) hu hh)
  · exact exec_refuses rfl ho rfl ((setSection_fin n r _).trans (if_neg (not_writable hu hr)))
  · rw [exec_setDeadList hh]
    exact congrArg _ (request_refuses ho rfl ((setDeadList_eq ..).trans (if_neg (not_writable hu hr))))
  · exact exec_refuses rfl ho rfl ((addDeadHook_eq hh _).trans (if_neg (not_writable hu hr)))
  · exact exec_refuses rfl ho rfl ((removeDeadHook_eq hh _).trans (if_neg (not_writable hu hr)))
  · rw [exec_defineWeave hl]
    exact congrArg _ (request_refuses ho rfl ((defineWeave_free (s := s.awaited .p .defineWeave) hfree ..).trans
      (if_pos ⟨hfix, not_writable hu hr⟩)))

/-! ### COMMIT-DESIGN and its scan -/

theorem answer_eq_answeredLate (l : LinkId) (st : Status) (p : List Byte) (s : State) :
    answer l ⟨st, p⟩ s = s.answeredLate l st p := rfl

theorem scanSlot_eq_some {f : Fst} {i : Fin 8} (h : (f.slots.get i).scanning = true)
    (hb : ∀ j, j < i → (f.slots.get j).scanning = false) : f.scanSlot = some i := by
  rw [Fst.scanSlot, List.find?_eq_some_iff_getElem]
  refine ⟨h, i.1, by simp, by simp, fun j hj => ?_⟩
  have hj' := hb ⟨j, by omega⟩ hj
  simpa using hj'

theorem scanSlot_eq_none {f : Fst} (h : ∀ i, (f.slots.get i).scanning = false) : f.scanSlot = none :=
  List.find?_eq_none.2 fun i _ => by simp [h i]

theorem firstNonVoid_eq_some {d : Design} {c : Nat} (hc : c < d.height) (hv : (d.card c).void = false)
    (hb : ∀ k, k < c → (d.card k).void = true) : d.firstNonVoid = some c := by
  rw [Design.firstNonVoid, List.find?_range_eq_some]
  exact ⟨by simp [Design.nonVoid, hv], by simpa using hc, fun k hk => by simp [Design.nonVoid, hb k hk]⟩

theorem firstNonVoid_eq_none {d : Design} (h : ∀ k, k < d.height → (d.card k).void = true) : d.firstNonVoid = none :=
  List.find?_eq_none.2 fun k hk => by simp [Design.nonVoid, h k (List.mem_range.1 hk)]

theorem nonVoidCount_eq (d : Design) :
    d.nonVoidCount = ((List.range d.height).filter fun k => !(d.card k).void).length := List.countP_eq_length_filter ..

theorem exec_commitScanEnd {s : State} {i : Fin 8} (h : s.fst.scanSlot = some i) :
    exec .commitScanEnd s = .next (endScan i s) := by
  show execCommitScanEnd s = _
  rw [execCommitScanEnd, h]

/-- Settles O29, by the slot's state and, at the end of the scan, by the first card that is not void. -/
theorem commitScanDecidesValid : Obligations.CommitScanDecidesValid := by
  intro s
  refine ⟨fun ho => ?_, fun i d hi hb hd => ⟨fun c n hc hv hbefore hn => ?_, fun hv => ?_⟩, fun h => ?_⟩
  · replace ho : (s.link .p).isOpen = true := ho
    exact ⟨fun i hi => exec_refuses rfl ho rfl (withSlot_outside hi ..),
      fun i hi => exec_refuses rfl ho rfl ((withSlot_fin ..).trans (if_neg hi)),
      fun i hi => exec_waits rfl ho rfl ((withSlot_fin ..).trans (if_pos hi))⟩
  · rw [exec_commitScanEnd (scanSlot_eq_some hi hb), endScan, hd]
    simp only [firstNonVoid_eq_some hc hv hbefore, nonVoidCount_eq, ← hn, answer_eq_answeredLate]
  · rw [exec_commitScanEnd (scanSlot_eq_some hi hb), endScan, hd]
    simp only [firstNonVoid_eq_none hv, answer_eq_answeredLate]
  · show execCommitScanEnd s = _
    rw [execCommitScanEnd, scanSlot_eq_none h]

/-! ### The change unit -/

theorem conditionOk_eq_false_iff (k : Condition) :
    conditionOk k = false ↔ (∃ m, k = .atMark m ∧ 3 < m) ∨ ∃ n, k = .atCount n ∧ (n = 0 ∨ 65535 < n) := by
  cases k <;> simp [conditionOk]
  omega

theorem condition_inRange {k : Condition} (hm : ∀ m, k = .atMark m → m ≤ 3) (hn : ∀ n, k = .atCount n → 1 ≤ n ∧ n ≤ 65535) :
    conditionOk k ≠ false := by
  rw [Ne, conditionOk_eq_false_iff]
  rintro (⟨m, e, h⟩ | ⟨n, e, h⟩)
  · exact absurd (hm m e) (Nat.not_le.2 h)
  · have := hn n e
    omega

theorem queueChange_fin (i : Fin 8) (card : Nat) (k : Condition) (f : Bool) (s : State) :
    queueChange i.1 card k f s =
      if conditionOk k = false then refuse s .badArgument
      else if s.seq.state = .unloaded ∨ s.seq.state = .halted then refuse s .wrongState
      else match (s.slot i).state, s.design i with
        | .valid, some d =>
          if d.height ≤ card then refuse s .badArgument
          else if 4 ≤ s.chu.queue.length then refuse s .noSpace
          else accept (joinQueue (s.chu.entry i card k f) s) (b16 s.chu.nextId.toNat ++ b8 (s.chu.queue.length + 1))
        | _, _ => refuse s .checkFailed := by
  rw [queueChange, member_fin] <;> rfl

/-- R147 for a slot with a design, once condition and state are in order. -/
theorem queueChange_valid {i : Fin 8} {d : Design} {s : State} (hv : (s.slot i).state = .valid) (hd : s.design i = some d)
    {k : Condition} (hk : conditionOk k ≠ false) (hs : ¬(s.seq.state = .unloaded ∨ s.seq.state = .halted)) (card : Nat)
    (f : Bool) : queueChange i.1 card k f s =
      if d.height ≤ card then refuse s .badArgument
      else if 4 ≤ s.chu.queue.length then refuse s .noSpace
      else accept (joinQueue (s.chu.entry i card k f) s) (b16 s.chu.nextId.toNat ++ b8 (s.chu.queue.length + 1)) := by
  rw [queueChange_fin, if_neg hk, if_neg hs, hv, hd]

theorem queueChange_invalid {i : Fin 8} {s : State} (hv : (s.slot i).state ≠ .valid)
    {k : Condition} (hk : conditionOk k ≠ false) (hs : ¬(s.seq.state = .unloaded ∨ s.seq.state = .halted)) (card : Nat)
    (f : Bool) : queueChange i.1 card k f s = refuse s .checkFailed := by
  rw [queueChange_fin, if_neg hk, if_neg hs]
  split
  next e _ => exact absurd e hv
  next => rfl

/-- R149, R30: every change that leaves the queue is released. -/
theorem slots_emptyQueue (s : State) (i : Fin 8) : (emptyQueue s).fst.slots.get i = { s.slot i with
    refs := { (s.slot i).refs with
      queue := (s.slot i).refs.queue - (s.chu.queue.filter fun c => decide (c.slot = i)).length } } := by
  have hr := recounted_releaseChanges s.chu.queue s
  refine (hr.slots i).trans (congrArg (fun r => { s.slot i with refs := r }) (Refs.ext_count fun k => ?_))
  refine (refCount_releaseChanges i k s.chu.queue s).trans ?_
  cases k <;> rfl

theorem emptyQueue_eq (s : State) :
    emptyQueue s = { s with fst := (emptyQueue s).fst, chu := { s.chu with queue := [] } } := by
  have hr := recounted_releaseChanges s.chu.queue s
  unfold emptyQueue
  rw [hr.only]

theorem setMark_fin (k : Fin 4) (m : CompMode) (v w : BitVec 8) (a b : Bool) (s : State) : setMark k.1 m v w a b s =
    if s.writable = true then
      if m ≠ .off ∧ w = 0 then refuse s .badArgument
      else accept { s with chu := { s.chu with comps := upd s.chu.comps k ⟨m, v, w, a, b, 0⟩ } } []
    else refuse s .wrongState := by
  rw [setMark, member_fin]

/-- Settles O54, each request by the checks of its owner. -/
theorem changeUnitRequests : Obligations.ChangeUnitRequests := by
  intro s ho
  replace ho : (s.link .p).isOpen = true := ho
  refine ⟨fun i card k r hi => ?_, fun i card k r hk => ?_, fun i card k r hm hn => ⟨fun hs => ?_, fun hu hh => ⟨fun hv => ?_,
    fun d hv hd => ⟨fun hc => ?_, fun hc hq => ?_, fun hc hq => ⟨_, rfl, ?_⟩⟩⟩⟩, ?_,
    fun k m v w a b => ⟨fun hk => ?_, fun hk hw => ?_, fun hk hw hm h0 => ?_⟩, fun k m v w a b hw hm => ?_⟩
  · exact exec_refuses rfl ho rfl (by rw [queueChange, member_outside hi])
  · exact exec_refuses rfl ho rfl ((queueChange_fin ..).trans (if_pos ((conditionOk_eq_false_iff k).2 hk)))
  · have hk : conditionOk k ≠ false := condition_inRange hm hn
    exact exec_refuses rfl ho rfl ((queueChange_fin ..).trans ((if_neg hk).trans (if_pos hs)))
  · exact exec_refuses rfl ho rfl (queueChange_invalid (s := s.awaited .p .queueChange) hv (condition_inRange hm hn)
      (fun h => h.elim hu hh) card r)
  · exact exec_refuses rfl ho rfl ((queueChange_valid (s := s.awaited .p .queueChange) hv hd (condition_inRange hm hn)
      (fun h => h.elim hu hh) card r).trans (if_pos hc))
  · exact exec_refuses rfl ho rfl ((queueChange_valid (s := s.awaited .p .queueChange) hv hd (condition_inRange hm hn)
      (fun h => h.elim hu hh) card r).trans ((if_neg (Nat.not_le.2 hc)).trans (if_pos hq)))
  · exact exec_answers rfl ho rfl rfl ((queueChange_valid (s := s.awaited .p .queueChange) hv hd (condition_inRange hm hn)
      (fun h => h.elim hu hh) card r).trans ((if_neg (Nat.not_le.2 hc)).trans (if_neg (Nat.not_le.2 hq))))
  · have hr := recounted_releaseChanges s.chu.queue (s.awaited .p .cancelChanges)
    exact ⟨_, exec_answers rfl ho rfl rfl (congrArg (accept · _) (emptyQueue_eq (s.awaited .p .cancelChanges))), hr.owner,
      hr.free, slots_emptyQueue (s.awaited .p .cancelChanges)⟩
  · exact exec_refuses rfl ho rfl (by rw [setMark, member_outside hk])
  · exact exec_refuses rfl ho rfl ((setMark_fin ⟨k, hk⟩ ..).trans (if_neg fun h => hw (writable_iff.1 h)))
  · exact exec_refuses rfl ho rfl ((setMark_fin ⟨k, hk⟩ ..).trans ((if_pos (writable_iff.2 hw)).trans (if_pos ⟨hm, h0⟩)))
  · exact exec_answers rfl ho rfl rfl ((setMark_fin k ..).trans ((if_pos (writable_iff.2 hw)).trans
      (if_neg fun h => hm.elim h.1 fun hne => hne h.2)))

end Sys2Proof.Machine
end

section
/-! PROOFS. Guard entry, guard exit and the settings of GRD (R139, R140, R160 to R167, R170 to R172). -/

namespace Sys2Proof.Machine

/-! ### A trigger that enters guard -/

theorem countAfter_eq (g : Grd) (t : Trigger) : g.countAfter t =
    if g.counts.get t.idx = true ∧ (g.limit = 0 ∨ g.count < g.limit) then (if g.count < 15 then g.count + 1 else g.count)
    else g.count := by
  have h : (g.counts.get t.idx = true ∧ g.entersHalted t = false) ↔
      (g.counts.get t.idx = true ∧ (g.limit = 0 ∨ g.count < g.limit)) := by
    refine and_congr_right fun hc => ?_
    rw [← Bool.not_eq_true, entersHalted_iff]
    simp only [hc, true_and]
    omega
  simp only [Grd.countAfter, h, raiseTo]

theorem guardEntry_state (t : Trigger) (s : State) : (guardEntry t s).seq.state =
    if s.grd.counts.get t.idx = true ∧ 0 < s.grd.limit ∧ s.grd.limit ≤ s.grd.count then .halted else .guard := by
  simp only [guardEntry_seq, ← entersHalted_iff]

theorem halted_iff_entersHalted (t : Trigger) (s : State) :
    (guardEntry t s).seq.state = .halted ↔ s.grd.entersHalted t = true := by
  rw [guardEntry_seq]
  cases s.grd.entersHalted t <;> simp

theorem mem_joinCause (t y : Trigger) (causes : List Trigger) : y ∈ joinCause t causes ↔ y = t ∨ y ∈ causes := by
  cases y <;> simp [joinCause, Trigger.all]

/-- R165: whatever the shed finds, the budget and the census stay; a TAKE is not withdrawn. -/
theorem guardEntry_hcc_kept (t : Trigger) (s : State) :
    (guardEntry t s).hcc.budget = s.hcc.budget ∧ (guardEntry t s).hcc.census = s.hcc.census := by
  cases h : s.hcc.isTaking
  · cases hs : s.grd.shed
    · obtain ⟨_, _, e, _⟩ := guardEntry_hold (t := t) hs h
      rw [e]; exact ⟨rfl, rfl⟩
    · obtain ⟨_, _, e, _⟩ := guardEntry_close (t := t) hs h
      rw [e]; exact ⟨rfl, rfl⟩
  · rw [(guardEntry_taking (t := t) h).2]
    split <;> exact ⟨rfl, rfl⟩

theorem readyChanged_departed {q : SeqState} (h : q = .ready) (s : State) : .readyChanged ∈ (departed q s).dlk.notices := by
  rw [departed, if_pos h]
  exact (mem_raise ..).2 (.inl rfl)

/-- R164 step 8, with the READY-CHANGED of R118. -/
theorem guardEntry_notices (t : Trigger) (s : State) :
    .guardEntered ∈ (guardEntry t s).wlk.notices ∧ .planChanged ∈ (guardEntry t s).wlk.notices ∧
      ((guardEntry t s).seq.state = .guard →
        .guardEntered ∈ (guardEntry t s).plk.notices ∧ .guardEntered ∈ (guardEntry t s).dlk.notices) ∧
      ((guardEntry t s).seq.state = .halted →
        .halted ∈ (guardEntry t s).plk.notices ∧ .halted ∈ (guardEntry t s).dlk.notices) ∧
      (s.seq.state = .ready → .readyChanged ∈ (guardEntry t s).dlk.notices) := by
  have hr : s.seq.state = .ready → .readyChanged ∈ (guardEntry t s).dlk.notices := by
    intro h
    have hq : (shedHooks (discardStaging (interruptWindow (recordEntry t s)))).seq.state = .ready := by simpa using h
    unfold guardEntry entryNotices seqIntoGuard
    simp only [raise_w_dlk]
    split <;> simp only [raise_d_dlk, raise_p_dlk, mem_raise] <;> exact .inr (readyChanged_departed hq _)
  have hh := halted_iff_entersHalted t s
  refine ⟨by simp [guardEntry, entryNotices], by simp [guardEntry, entryNotices], fun h => ?_, fun h => ?_, hr⟩
  · have hb : s.grd.entersHalted t = false := Bool.eq_false_iff.2 (mt hh.2 (by rw [h]; decide))
    simp [guardEntry, entryNotices, hb]
  · simp [guardEntry, entryNotices, hh.1 h]

theorem kept_countTrigger (t : Trigger) (s : State) : Kept s (countTrigger t s) :=
  ⟨rfl, rfl, rfl, rfl, rfl, rfl, rfl, rfl, rfl, rfl, rfl, rfl, rfl, rfl, rfl, rfl, rfl, rfl, fun _ => Link.kept.refl _⟩

theorem isTaking_eq_false_iff (s : State) : s.hcc.isTaking = false ↔ ¬s.takes := by
  rw [← isTaking_iff_takes, Bool.not_eq_true]

/-- R165: what the shed HOLD leaves, during a TAKE or not. -/
theorem guardEntry_held {t : Trigger} {s : State} (h : s.grd.shed = .hold) :
    (guardEntry t s).hcc.latched = s.hcc.latched ∧ (s.hcc.isTaking = false → (guardEntry t s).hcc.transfer = .idle) ∧
      (s.hcc.isTaking = true → (guardEntry t s).hcc.transfer = s.hcc.transfer) := by
  cases hb : s.hcc.isTaking
  · obtain ⟨_, _, e, _⟩ := guardEntry_hold (t := t) h hb
    rw [e]
    exact ⟨rfl, fun _ => rfl, nofun⟩
  · rw [(guardEntry_taking (t := t) hb).2, if_neg (by rw [h]; decide)]
    exact ⟨rfl, nofun, fun _ => rfl⟩

/-- R165, R110: what the shed CLOSE leaves, during a TAKE or not. -/
theorem guardEntry_closed {t : Trigger} {s : State} (h : s.grd.shed = .close) :
    (s.hcc.isTaking = false → (guardEntry t s).hcc.latched = .closed ∧ (guardEntry t s).hcc.transfer = .idle ∧
        (guardEntry t s).hcc.lastStrobe = some .drop) ∧
      (s.hcc.isTaking = true → (guardEntry t s).hcc.latched = s.hcc.latched ∧
        (guardEntry t s).hcc.transfer = s.hcc.transfer ∧ (guardEntry t s).hcc.dropHeld = true) := by
  cases hb : s.hcc.isTaking
  · obtain ⟨_, _, e, _⟩ := guardEntry_close (t := t) h hb
    rw [e]
    exact ⟨fun _ => ⟨rfl, rfl, rfl⟩, nofun⟩
  · rw [(guardEntry_taking (t := t) hb).2, if_pos h]
    exact ⟨nofun, fun _ => ⟨rfl, rfl, rfl⟩⟩

/-- R164, R165, R139: an enabled trigger in a state that it can move into guard. -/
theorem guardEntered_guardEntry (t : Trigger) (s : State) : s.guardEntered t (guardEntry t (countTrigger t s)) := by
  have hk := (kept_countTrigger t s).trans (kept_guardEntry t (countTrigger t s))
  obtain ⟨g, hw⟩ := guardEntry_wft t (countTrigger t s)
  obtain ⟨ho, hf⟩ := guardEntry_store t (countTrigger t s)
  obtain ⟨hbud, hcen⟩ := guardEntry_hcc_kept t (countTrigger t s)
  have hentry : decide ((guardEntry t (countTrigger t s)).seq.state = .halted) = s.grd.entersHalted t := by
    rw [Bool.eq_iff_iff, decide_eq_true_iff, halted_iff_entersHalted]
    rfl
  exact {
    state := guardEntry_state t _
    count := by rw [guardEntry_grd]; exact countAfter_eq s.grd t
    causes := fun x => by rw [guardEntry_grd]; exact mem_joinCause t x s.grd.causes
    entry := by rw [guardEntry_grd, hentry]; rfl
    run := by rw [guardEntry_grd]
    window := by rw [hw]; exact ⟨rfl, rfl, rfl, rfl, rfl⟩
    staging := fun h => guardEntry_xpe h
    hold := fun h => guardEntry_held (s := countTrigger t s) h
    close := fun h => guardEntry_closed (s := countTrigger t s) h
    grant := by rw [guardEntry_seq]; exact ⟨rfl, rfl, rfl, rfl⟩
    dropped := by rw [guardEntry_seq]; exact ⟨rfl, rfl⟩
    stall := by rw [guardEntry_ang]; exact ⟨rfl, rfl⟩
    stop := by rw [guardEntry_grd]
    notices := guardEntry_notices t (countTrigger t s)
    kept := ⟨hk.cursor, hk.serial, hk.history, hk.woven, by rw [guardEntry_seq]; rfl, hk.chu, hk.hmp, hk.wlb, ho, hf, hbud,
      hcen, hk.feeders, by rw [guardEntry_ang]; rfl, by rw [guardEntry_ang]; rfl, hk.draws, hk.pending⟩ }

theorem totals_trigger (x y : Trigger) (s : State) : (trigger x s).grd.totals.get y.idx =
    if y = x ∧ s.grd.totals.get y.idx < 65535 then s.grd.totals.get y.idx + 1 else s.grd.totals.get y.idx := by
  rw [trigger_totals, get_upd_eq]
  by_cases h : y = x
  · subst h
    simp only [true_and, if_true, raiseTo]
  · rw [if_neg (mt idx_injective h), if_neg fun k => h k.1]

/-- Settles O55, by the cases of a trigger; the case of a guard entry is `guardEntered_guardEntry`. -/
theorem triggersTakenByState : Obligations.TriggersTakenByState := by
  intro x s
  have htot : (trigger x s).grd.totals = (countTrigger x s).grd.totals := trigger_totals x s
  refine ⟨fun y => ?_, fun h => ?_, fun h he => ?_, fun h he => ?_, fun h he => ?_⟩
  · exact totals_trigger x y s
  · rw [htot, trigger_unloaded h]
    rfl
  · rw [htot, trigger_disabled h he]
    rfl
  · rw [htot, trigger_inGuard h he]
    exact ⟨_, rfl, fun y => mem_joinCause x y s.grd.causes⟩
  · rw [trigger_enters h he]
    exact guardEntered_guardEntry x s

/-! ### What a guard exit reads -/

/-- `u` differs from `s` in nothing that a guard exit reads and nothing that it is said to keep. -/
structure State.SameExit (s u : State) : Prop where
  cursor : u.seq.cursor = s.seq.cursor
  history : u.seq.history = s.seq.history
  woven : u.seq.woven = s.seq.woven
  owed : u.seq.representOwed = s.seq.representOwed
  latched : u.hcc.latched = s.hcc.latched
  released : u.hcc.holdsReleased = s.hcc.holdsReleased
  dropHeld : u.hcc.dropHeld = s.hcc.dropHeld
  census : u.hcc.census = s.hcc.census
  taking : u.takes ↔ s.takes
  transfer : s.takes → u.hcc.transfer = s.hcc.transfer
  staged : u.stagedBelongs = s.stagedBelongs
  chu : u.chu = s.chu
  entry : u.grd.entry = s.grd.entry

/-- GRD, the tracker and the links aside, the state is the same. -/
theorem sameExit_of_units {s u : State} (hq : u.seq = s.seq) (hh : u.hcc = s.hcc) (hx : u.xpe = s.xpe) (hc : u.chu = s.chu)
    (he : u.grd.entry = s.grd.entry) : s.SameExit u where
  cursor := by rw [hq]
  history := by rw [hq]
  woven := by rw [hq]
  owed := by rw [hq]
  latched := by rw [hh]
  released := by rw [hh]
  dropHeld := by rw [hh]
  census := by rw [hh]
  taking := by rw [State.takes, hh]
  transfer := fun _ => by rw [hh]
  staged := by rw [State.stagedBelongs, State.stagedBelongs, hx, hq]
  chu := hc
  entry := he

theorem State.SameExit.exitsToReady {s u : State} (h : s.SameExit u) : u.exitsToReady ↔ s.exitsToReady := by
  unfold State.exitsToReady State.latchedBelongs State.pendingPlan
  rw [h.latched, h.released, h.cursor, h.dropHeld]

theorem State.SameExit.guardLeft {s u t : State} {run count : Nat} (h : s.SameExit u) (hl : u.guardLeft run count t) :
    s.guardLeft run count t where
  state := by simp only [hl.state, h.exitsToReady, h.owed]
  ready := fun he => hl.ready (h.exitsToReady.2 he)
  presents := fun c hs hn hc hb => by
    rw [← h.census]
    exact hl.presents c hs (mt h.taking.1 hn) (h.cursor.trans hc) (h.staged.trans hb)
  waits := fun hs hk => by
    rw [← h.transfer hk]
    exact hl.waits hs (h.taking.2 hk)
  cleared := hl.cleared
  notices := hl.notices
  kept := by
    rw [← h.cursor, ← h.history, ← h.woven, ← h.chu, ← h.entry, ← h.owed, ← h.latched]
    exact hl.kept
  counts := hl.counts

/-- The answer to a request leaves what is said of a guard exit. -/
theorem guardLeft_answer {s t : State} {run count : Nat} (h : s.guardLeft run count t) (l : LinkId) (r : Response) :
    s.guardLeft run count (answer l r t) := by
  have hm := fun k => ((kept_answer l r t).links k).notices
  cases l <;> exact {
    state := h.state
    ready := fun he => ⟨hm .d _ (h.ready he).1, hm .w _ (h.ready he).2.1, (h.ready he).2.2⟩
    presents := h.presents
    waits := h.waits
    cleared := h.cleared
    notices := ⟨hm .p _ h.notices.1, hm .d _ h.notices.2⟩
    kept := h.kept
    counts := h.counts }

/-! ### Requests whose owner keeps the links -/

/-- An accepted request whose owner does more than it answers: the answer follows, and is sent. -/
theorem exec_accepts {c : Instr} {l : LinkId} {r : Request} {owner : State → State × Reply} {s b u : State} {p : List Byte}
    (hc : served c = some ⟨l, r, .good, owner⟩) (ho : (s.link l).isOpen = true) (hl : r.onLink l = true)
    (hw : owner (s.awaited l r) = accept u p) (hk : Kept b u)
    (hb : b.link l = (s.awaited l r).link l) :
    exec c s = .next (answer l ⟨.ok, p⟩ u) ∧ ((answer l ⟨.ok, p⟩ u).link l).response = some ⟨.ok, p⟩ := by
  constructor
  · rw [exec_served hc, request_of_open ho]
    simp only [serve, hl, if_true, hw]
    rfl
  · exact response_kept _ (hb.trans (link_modLink ..)) ((isOpen_iff _).1 ho).2.2 hk

/-! ### CLEAR-HALT (R171) -/

theorem guardLeft_of_counts {u : State} {run count : Nat} (hr : u.grd.run = run) (hc : u.grd.count = count) :
    u.guardLeft run count (presentOwed (guardExit u)) := hr ▸ hc ▸ guardLeft_guardExit u

theorem mayExit_iff (s : State) :
    s.mayExit = true ↔ s.ang.rest = .atRest ∧ s.seq.coasting = false ∧ s.grd.levelCause = false := by
  simp [State.mayExit, and_assoc]

theorem guardExit_state (s : State) : (guardExit s).seq.state = if s.exitsToReady then .ready else .presenting := by
  unfold guardExit
  simp only [exitsReady_iff]
  split
  next h =>
    have h' : s.exitsToReady := h
    rw [if_pos h']
    rfl
  next h =>
    have h' : ¬s.exitsToReady := h
    rw [if_neg h']
    exact (enterPresenting_does _).2.1

theorem clearHalt_refuses {s : State} (h : ¬(s.seq.state = .halted ∧ s.mayExit = true)) :
    clearHalt s = refuse s .wrongState := if_neg h

theorem clearHalt_accepts {s : State} (h : s.seq.state = .halted) (hm : s.mayExit = true) :
    clearHalt s = accept (presentOwed (guardExit { s with grd := { s.grd with count := 0, run := 0 } }))
      (b8 (stateCode (if s.exitsToReady then .ready else .presenting))) :=
  (if_pos ⟨h, hm⟩).trans (congrArg (fun q => accept (presentOwed (guardExit { s with grd := { s.grd with count := 0, run := 0 } }))
    (b8 (stateCode q))) (guardExit_state _))

/-- Settles O57: the exit of CLEAR-HALT is `guardLeft_guardExit` with both counters 0. -/
theorem clearHaltLeavesHalted : Obligations.ClearHaltLeavesHalted := by
  intro s ho
  replace ho : (s.link .p).isOpen = true := ho
  refine ⟨fun h => ?_, fun hs hr hc hl => ?_⟩
  · exact exec_refuses rfl ho rfl (clearHalt_refuses fun k => h ⟨k.1, (mayExit_iff s).1 k.2⟩)
  · obtain ⟨u, hu⟩ : ∃ u : State, u = { s.awaited .p .clearHalt with grd := { s.grd with count := 0, run := 0 } } := ⟨_, rfl⟩
    have hw : clearHalt (s.awaited .p .clearHalt) = accept (presentOwed (guardExit u))
        (b8 (stateCode (if s.exitsToReady then .ready else .presenting))) := by
      rw [hu]
      exact clearHalt_accepts hs ((mayExit_iff s).2 ⟨hr, hc, hl⟩)
    have hk : Kept (s.awaited .p .clearHalt) u := by
      rw [hu]
      exact ⟨rfl, rfl, rfl, rfl, rfl, rfl, rfl, rfl, rfl, rfl, rfl, rfl, rfl, rfl, rfl, rfl, rfl, rfl, fun _ => .refl _⟩
    obtain ⟨he, hresp⟩ := exec_accepts (c := .clearHalt) rfl ho rfl hw ((hk.trans (kept_guardExit u)).trans (kept_presentOwed _)) rfl
    have hx : s.SameExit u := by
      rw [hu]
      exact sameExit_of_units rfl rfl rfl rfl rfl
    have hg : u.grd.run = 0 ∧ u.grd.count = 0 := by
      rw [hu]
      exact ⟨rfl, rfl⟩
    exact ⟨_, he, guardLeft_answer (hx.guardLeft (guardLeft_of_counts hg.1 hg.2)) .p _, hresp⟩

/-! ### SET-GUARD (R162, R172) -/

theorem guardOk_iff (g : GuardSetting) : guardOk g = true ↔ g.limit ≤ 15 ∧ 1 ≤ g.filterTime ∧ g.filterTime ≤ 255 ∧
    ∀ x : Trigger, x.mayDisable = false → g.enabled.get x.idx = true := by
  have h : (Trigger.all.all fun t => g.enabled.get t.idx || t.mayDisable) = true ↔
      ∀ x : Trigger, x.mayDisable = false → g.enabled.get x.idx = true := by
    rw [List.all_eq_true]
    refine ⟨fun h x hx => ?_, fun h x _ => ?_⟩
    · simpa [hx] using h x (List.mem_of_getElem? (all_idx x))
    · cases hx : x.mayDisable
      · simp [h x hx]
      · simp
  simp only [guardOk, Bool.and_eq_true, decide_eq_true_iff, h, and_assoc]

/-- `s` is in guard for `x`, with no way out before the shaft has rested. -/
structure State.HeldBy (x : Trigger) (s : State) : Prop where
  state : s.seq.state = .guard ∨ s.seq.state = .halted
  cause : x ∈ s.grd.causes
  coasting : s.seq.coasting = true

theorem heldBy_trigger_taken {x : Trigger} {s : State} (h : s.seq.state.guarded) (he : s.grd.isEnabled x = true) :
    (trigger x s).HeldBy x := by
  rw [trigger_enters h he]
  refine ⟨?_, ?_, by rw [guardEntry_seq]⟩
  · rw [guardEntry_state]
    split
    · exact .inr rfl
    · exact .inl rfl
  · rw [guardEntry_grd]
    exact (mem_joinCause ..).2 (.inl rfl)

theorem trigger_in_guard_keeps {x : Trigger} {s : State} (h : s.seq.state = .guard ∨ s.seq.state = .halted) :
    (trigger x s).seq = s.seq ∧ ∀ y, y ∈ s.grd.causes → y ∈ (trigger x s).grd.causes := by
  cases he : s.grd.isEnabled x
  · rw [trigger_disabled (by rcases h with h | h <;> rw [h] <;> decide) he]
    exact ⟨rfl, fun y hy => hy⟩
  · rw [trigger_inGuard h he]
    exact ⟨rfl, fun y hy => (mem_joinCause ..).2 (.inr hy)⟩

theorem heldBy_trigger_keeps {x y : Trigger} {s : State} (h : s.HeldBy x) : (trigger y s).HeldBy x := by
  obtain ⟨hq, hc⟩ := trigger_in_guard_keeps (x := y) h.state
  exact ⟨by rw [hq]; exact h.state, hc x h.cause, by rw [hq]; exact h.coasting⟩

theorem heldBy_trigger_joins {x y : Trigger} {s : State} (h : s.HeldBy y) (he : s.grd.isEnabled x = true) :
    (trigger x s).HeldBy x := by
  obtain ⟨hq, _⟩ := trigger_in_guard_keeps (x := x) h.state
  refine ⟨by rw [hq]; exact h.state, ?_, by rw [hq]; exact h.coasting⟩
  rw [trigger_inGuard h.state he]
  exact (mem_joinCause ..).2 (.inl rfl)

theorem exitCheck_of_heldBy {x : Trigger} {s : State} (h : s.HeldBy x) : exitCheck s = s :=
  exitCheck_of_coasting fun _ => h.coasting

/-- The settings that GRD holds. -/
def Grd.setting (g : Grd) : GuardSetting := ⟨g.enabled, g.counts, g.shed, g.limit, g.autoClear, g.filterTime⟩

/-- GRD holds the settings `c`, and its count is within their limit. -/
def Grd.Follows (c : GuardSetting) (g : Grd) : Prop := g.setting = c ∧ (0 < c.limit → g.count ≤ c.limit)

theorem follows_set (c : GuardSetting) (g : Grd) : (g.set c).Follows c := by
  refine ⟨rfl, fun h => ?_⟩
  simp only [Grd.set]
  split <;> omega

theorem follows_of_same {c : GuardSetting} {g k : Grd} (h : g.Follows c) (hs : k.setting = g.setting)
    (hc : k.count = g.count) : k.Follows c := ⟨hs.trans h.1, fun hl => hc ▸ h.2 hl⟩

theorem follows_countAfter {c : GuardSetting} {g k : Grd} (h : g.Follows c) (t : Trigger) (hs : k.setting = g.setting)
    (hc : k.count = g.countAfter t) : k.Follows c := by
  refine ⟨hs.trans h.1, fun hl => ?_⟩
  have hn := h.2 hl
  have hlim : g.limit = c.limit := by rw [← h.1]; rfl
  rw [hc, countAfter_eq]
  split <;> (try split) <;> omega

theorem follows_trigger {c : GuardSetting} {s : State} (t : Trigger) (h : s.grd.Follows c) : (trigger t s).grd.Follows c := by
  rcases trigger_cases t s with ⟨_, e⟩ | ⟨_, _, e⟩ | ⟨_, _, e⟩ | ⟨_, _, e⟩ <;> rw [e]
  · exact follows_of_same h rfl rfl
  · exact follows_of_same h rfl rfl
  · exact follows_of_same h rfl rfl
  · exact follows_countAfter h t (by rw [guardEntry_grd]; rfl) (by rw [guardEntry_grd]; rfl)

theorem follows_triggerWhen {c : GuardSetting} {s : State} (b : Bool) (t : Trigger) (h : s.grd.Follows c) :
    (triggerWhen b t s).grd.Follows c := by
  cases b
  · exact h
  · exact follows_trigger t h

/-- The onsets of one SET-GUARD: both, in either order, or at most one. -/
theorem onsets_cases (old : Grd) (s : State) :
    (s.grd.hasOnset old .warpStop s.grd.warp = true ∧ s.grd.hasOnset old .moduleFault s.grd.moduleLevel = true ∧
      (onsets old s = trigger .moduleFault (trigger .warpStop { s with draws := s.draws + 1 }) ∨
        onsets old s = trigger .warpStop (trigger .moduleFault { s with draws := s.draws + 1 }))) ∨
    onsets old s = triggerWhen (s.grd.hasOnset old .moduleFault s.grd.moduleLevel) .moduleFault
      (triggerWhen (s.grd.hasOnset old .warpStop s.grd.warp) .warpStop s) := by
  cases hb : s.grd.hasOnset old .warpStop s.grd.warp && s.grd.hasOnset old .moduleFault s.grd.moduleLevel
  · exact .inr (by simp only [onsets, hb]; rfl)
  · obtain ⟨hw, hm⟩ := Bool.and_eq_true_iff.1 hb
    refine .inl ⟨hw, hm, ?_⟩
    cases hd : Config.warpFirst s.draws
    · exact .inr (by simp only [onsets, hb, hd]; rfl)
    · exact .inl (by simp only [onsets, hb, hd]; rfl)

theorem follows_onsets {c : GuardSetting} {s : State} (old : Grd) (h : s.grd.Follows c) : (onsets old s).grd.Follows c := by
  rcases onsets_cases old s with ⟨_, _, e | e⟩ | e <;> rw [e]
  · exact follows_trigger _ (follows_trigger _ h)
  · exact follows_trigger _ (follows_trigger _ h)
  · exact follows_triggerWhen _ _ (follows_triggerWhen _ _ h)

theorem follows_enterPresenting {c : GuardSetting} {s : State} (h : s.grd.Follows c) : (enterPresenting s).grd.Follows c := by
  rw [presented_enterPresenting.grd]
  exact follows_of_same h rfl rfl

theorem follows_exitCheck {c : GuardSetting} {s : State} (h : s.grd.Follows c) : (exitCheck s).grd.Follows c := by
  have hexit : (guardExit s).grd.Follows c := by
    unfold guardExit
    simp only
    split
    · exact follows_of_same h rfl rfl
    · exact follows_enterPresenting (follows_of_same h rfl rfl)
  unfold exitCheck presentOwed represent departed
  split
  · split
    · split
      · exact follows_enterPresenting hexit
      · exact follows_enterPresenting hexit
    · exact hexit
  · exact h

/-! ### The onsets of a SET-GUARD -/

theorem hasOnset_iff (new old : Grd) (t : Trigger) (active : Bool) :
    new.hasOnset old t active = true ↔ active = true ∧ new.isEnabled t = true ∧ old.isEnabled t = false := by
  simp [Grd.hasOnset, and_assoc]

/-- The levels for which a SET-GUARD can raise an onset. -/
def Grd.level (g : Grd) : Trigger → Bool
  | .warpStop => g.warp
  | .moduleFault => g.moduleLevel
  | _ => false

theorem level_iff (g : Grd) (x : Trigger) :
    g.level x = true ↔ x = .warpStop ∧ g.warp = true ∨ x = .moduleFault ∧ g.moduleLevel = true := by
  cases x <;> simp [Grd.level]

theorem onsets_none {old : Grd} {s : State} (hw : s.grd.hasOnset old .warpStop s.grd.warp = false)
    (hm : s.grd.hasOnset old .moduleFault s.grd.moduleLevel = false) : onsets old s = s := by
  simp [onsets, hw, hm, triggerWhen]

/-- Of two onsets taken one after another, in either order, guard is held by both. -/
theorem heldBy_both {x y : Trigger} {s : State} (h : s.seq.state.guarded) (hx : s.grd.isEnabled x = true)
    (hy : s.grd.isEnabled y = true) :
    (trigger y (trigger x s)).HeldBy x ∧ (trigger y (trigger x s)).HeldBy y := by
  have h1 := heldBy_trigger_taken h hx
  refine ⟨heldBy_trigger_keeps h1, heldBy_trigger_joins h1 ?_⟩
  rw [Grd.isEnabled, trigger_grd_enabled]
  exact hy

theorem heldBy_triggerWhen_keeps {x y : Trigger} {s : State} (b : Bool) (h : s.HeldBy x) : (triggerWhen b y s).HeldBy x := by
  cases b
  · exact h
  · exact heldBy_trigger_keeps h

theorem heldBy_onsets {x : Trigger} {old : Grd} {s : State} (h : s.seq.state.guarded)
    (hx : s.grd.hasOnset old x (s.grd.level x) = true) : (onsets old s).HeldBy x := by
  obtain ⟨hl, he, _⟩ := (hasOnset_iff ..).1 hx
  have hwm : x = .warpStop ∨ x = .moduleFault := ((level_iff ..).1 hl).imp And.left And.left
  have enabled : ∀ {y : Trigger} {a : Bool}, s.grd.hasOnset old y a = true → s.grd.isEnabled y = true :=
    fun k => ((hasOnset_iff ..).1 k).2.1
  rcases onsets_cases old s with ⟨hw, hm, e | e⟩ | e <;> rw [e]
  · have hb := heldBy_both (s := { s with draws := s.draws + 1 }) h (enabled hw) (enabled hm)
    rcases hwm with rfl | rfl
    · exact hb.1
    · exact hb.2
  · have hb := heldBy_both (s := { s with draws := s.draws + 1 }) h (enabled hm) (enabled hw)
    rcases hwm with rfl | rfl
    · exact hb.2
    · exact hb.1
  · rcases hwm with rfl | rfl
    · have hw : s.grd.hasOnset old .warpStop s.grd.warp = true := hx
      rw [hw]
      exact heldBy_triggerWhen_keeps _ (heldBy_trigger_taken h he)
    · have hm : s.grd.hasOnset old .moduleFault s.grd.moduleLevel = true := hx
      rw [hm]
      cases hw : s.grd.hasOnset old .warpStop s.grd.warp
      · exact heldBy_trigger_taken h he
      · exact (heldBy_both h (enabled hw) he).2

theorem kept_onsets (old : Grd) (s : State) : ∃ n, Kept { s with draws := n } (onsets old s) := by
  rcases onsets_cases old s with ⟨_, _, e | e⟩ | e <;> rw [e]
  · exact ⟨s.draws + 1, (kept_trigger ..).trans (kept_trigger ..)⟩
  · exact ⟨s.draws + 1, (kept_trigger ..).trans (kept_trigger ..)⟩
  · exact ⟨s.draws, (kept_triggerWhen ..).trans (kept_triggerWhen ..)⟩

theorem disables_iff (new old : Grd) : new.disables old = true ↔
    ∃ x : Trigger, (x = .warpStop ∨ x = .moduleFault) ∧ old.isEnabled x = true ∧ new.isEnabled x = false := by
  simp [Grd.disables]

theorem levelCause_eq_false_iff (g : Grd) : g.levelCause = false ↔
    (g.warp = true → g.isEnabled .warpStop = false) ∧ (g.moduleLevel = true → g.isEnabled .moduleFault = false) := by
  simp only [Grd.levelCause, Bool.or_eq_false_iff, Bool.and_eq_false_iff]
  cases g.warp <;> cases g.moduleLevel <;> simp

theorem setGuard_refuses {g : GuardSetting} {s : State} (h : ¬guardOk g = true) : setGuard g s = refuse s .badArgument :=
  if_neg h

theorem setGuard_accepts {g : GuardSetting} {s : State} (h : guardOk g = true) :
    setGuard g s = accept (replaceGuard g s) [] := if_pos h

theorem follows_replaceGuard (g : GuardSetting) (s : State) : (replaceGuard g s).grd.Follows g := by
  have h : (onsets s.grd { s with grd := s.grd.set g }).grd.Follows g := follows_onsets _ (follows_set g s.grd)
  unfold replaceGuard
  split
  · exact follows_exitCheck h
  · exact h

theorem kept_replaceGuard (g : GuardSetting) (s : State) :
    ∃ n, Kept { s with grd := s.grd.set g, draws := n } (replaceGuard g s) := by
  obtain ⟨n, h⟩ := kept_onsets s.grd { s with grd := s.grd.set g }
  unfold replaceGuard
  split
  · exact ⟨n, h.trans (kept_exitCheck _)⟩
  · exact ⟨n, h⟩

theorem heldBy_replaceGuard {x : Trigger} {g : GuardSetting} {s : State} (h : s.seq.state.guarded)
    (hl : s.grd.level x = true) (ho : s.grd.isEnabled x = false) (hn : g.enabled.get x.idx = true) :
    (replaceGuard g s).HeldBy x := by
  have hx : (s.grd.set g).hasOnset s.grd x ((s.grd.set g).level x) = true :=
    (hasOnset_iff ..).2 ⟨by cases x <;> exact hl, hn, ho⟩
  have hh := heldBy_onsets (s := { s with grd := s.grd.set g }) h hx
  unfold replaceGuard
  split
  · rw [exitCheck_of_heldBy hh]
    exact hh
  · exact hh

/-- R172: SET-GUARD replaces settings alone when no level is active that it newly enables, outside GUARD. -/
theorem replaceGuard_eq {g : GuardSetting} {s : State}
    (hw : (s.grd.set g).hasOnset s.grd .warpStop s.grd.warp = false)
    (hm : (s.grd.set g).hasOnset s.grd .moduleFault s.grd.moduleLevel = false) : replaceGuard g s =
      if (s.grd.set g).disables s.grd then exitCheck { s with grd := s.grd.set g } else { s with grd := s.grd.set g } := by
  have e : onsets s.grd { s with grd := s.grd.set g } = { s with grd := s.grd.set g } := onsets_none hw hm
  simp only [replaceGuard, e]

/-- Settles O56: the settings are followed through the onsets and the exit check; an onset holds guard; without one the exit
check is `guardLeft_guardExit`. -/
theorem setGuardReplacesSettings : Obligations.SetGuardReplacesSettings := by
  intro s g ho
  replace ho : (s.link .p).isOpen = true := ho
  rw [← guardOk_iff]
  refine ⟨fun h => exec_refuses rfl ho rfl (setGuard_refuses h), fun h1 h2 h3 h4 => ?_⟩
  have hok : guardOk g = true := (guardOk_iff g).2 ⟨h1, h2, h3, h4⟩
  constructor
  · intro hw hm hs
    have hno : ∀ x a, a = false → (s.grd.set g).hasOnset s.grd x a = false := by
      rintro x _ rfl
      rfl
    refine exec_answers rfl ho rfl rfl ((setGuard_accepts hok).trans (congrArg (accept · []) ?_))
    refine (replaceGuard_eq (s := s.awaited .p .setGuard) (hno _ _ hw) (hno _ _ hm)).trans ?_
    rw [exitCheck_of_ne (by exact hs), ite_self]
    rfl
  · obtain ⟨n, hk⟩ := kept_replaceGuard g (s.awaited .p .setGuard)
    obtain ⟨he, hresp⟩ := exec_accepts (c := .setGuard g) rfl ho rfl (setGuard_accepts hok) hk rfl
    obtain ⟨hset, hcount⟩ := follows_replaceGuard g (s.awaited .p .setGuard)
    have hset' := GuardSetting.mk.inj hset
    obtain ⟨henabled, hcounts, hshed, hlimit, hclear, htime⟩ := hset'
    refine ⟨_, he, hresp, henabled, hcounts, hshed, hlimit, hclear, htime, hcount, fun x hx hold hnew hq => ?_,
      fun hs hr hc hdis hw hm => ?_⟩
    · have hh := heldBy_replaceGuard (s := s.awaited .p .setGuard) (g := g) hq ((level_iff s.grd x).2 hx) hold hnew
      exact ⟨hh.state, hh.cause⟩
    · have hno : ∀ x a, (a = true → g.enabled.get x.idx = false) → (s.grd.set g).hasOnset s.grd x a = false := by
        intro x a h
        rw [← Bool.not_eq_true, hasOnset_iff]
        exact fun k => Bool.eq_false_iff.1 (h k.1) k.2.1
      obtain ⟨u, hu⟩ : ∃ u : State, u = { s.awaited .p .setGuard with grd := s.grd.set g } := ⟨_, rfl⟩
      have hx : s.SameExit u := by
        rw [hu]
        exact sameExit_of_units rfl rfl rfl rfl rfl
      have hexit : replaceGuard g (s.awaited .p .setGuard) = presentOwed (guardExit u) := by
        rw [replaceGuard_eq (s := s.awaited .p .setGuard) (hno _ _ hw) (hno _ _ hm), if_pos ((disables_iff ..).2 hdis), hu]
        exact exitCheck_of_mayExit hs ((mayExit_iff _).2 ⟨hr, hc, (levelCause_eq_false_iff _).2 ⟨hw, hm⟩⟩)
      rw [hexit]
      exact guardLeft_answer (hx.guardLeft (guardLeft_of_counts (by rw [hu]; rfl) (by rw [hu]; rfl))) .p _

end Sys2Proof.Machine
end

section
/-! PROOFS. Requests that present the cursor pick: the map writes in READY (R52) and SELECT-DESIGN (R125). -/

namespace Sys2Proof.Machine

/-! ### A presentation that finds nothing staged -/

theorem discardStaging_of_empty {s : State} (h : s.xpe = ⟨none, .empty⟩) : discardStaging s = s := by
  have hs : s.xpe.staging = .empty := by rw [h]
  have e : { s with xpe := ⟨none, .empty⟩ } = s := by rw [← h]
  unfold discardStaging
  split
  · rfl
  · rw [hs, e]

theorem cardOf_claim (r : HoldReason) (i : Fin 8) (s : State) (c : Cursor) : (claim r i s).cardOf c = s.cardOf c := by
  rw [State.cardOf, State.cardOf, (recounted_claim r i s).design_eq]

theorem refs_claim_pos (i : Fin 8) (s : State) : 0 < ((claim .staged i s).slot i).refs.staged := by
  have h := refCount_claim .staged .staged i i s
  simp only [and_self, if_true] at h
  exact Nat.lt_of_lt_of_eq (Nat.succ_pos _) h.symm

/-- R62, R69: outside RUNNING the PRESENT order expands the cursor pick anew. -/
theorem presentBegun_orderPresent {s u : State} {c : Cursor} (hq : u.seq.state = .presenting) (hc : u.seq.cursor = some c)
    (hx : u.xpe = ⟨none, .empty⟩) (ht : u.hcc.isTaking = false) (hh : u.hcc = s.hcc) :
    s.presentBegun (orderPresent u) c := by
  have hr : u.seq.state ≠ .running := by rw [hq]; decide
  rw [orderPresent_eq hc hx ht, startJob_eq (s := { u with seq := { u.seq with present := some ⟨c, .expanding⟩ } }) hc (.inl hr)]
  refine ⟨hq, hc, rfl, ?_, ⟨_, rfl, rfl, ?_, rfl, rfl, ?_⟩, refs_claim_pos .., hh⟩
  · show some (⟨.present, c, 128 * u.hcc.census⟩ : Job) = _
    rw [hh]
  · rw [cardOf_claim]
    rfl
  · cases hf : (u.wft.choose (u.cardOf c).weft).feeder with
    | none => exact .inl hf
    | some f =>
      refine .inr ⟨f, hf, ?_⟩
      obtain ⟨g, hg⟩ := choose_wft u.wft (u.cardOf c).weft
      have := choose_ready hf
      show ((u.wft.choose (u.cardOf c).weft).wft.feeders.get f).state = .ready
      rw [hg]
      exact this

/-! ### Map writes in READY -/

/-- What a map write in READY makes of `u`, in which the map is written (R52). -/
structure State.Represented (s u t : State) (c : Cursor) : Prop where
  kept : Kept u t
  begun : s.presentBegun t c
  owed : t.seq.representOwed = .nextTake
  notice : .readyChanged ∈ t.dlk.notices

theorem mapWritten_represented {s u : State} {c : Cursor} (h : s.idleReady) (hc : s.seq.cursor = some c)
    (hq : u.seq = s.seq) (hx : u.xpe = s.xpe) (hh : u.hcc = s.hcc) : s.Represented u (mapWritten u) c := by
  obtain ⟨hstate, -, -, hxpe, htrans, -⟩ := h
  have ht : u.hcc.isTaking = false := by rw [hh, Hcc.isTaking, htrans]
  have e : mapWritten u = represent { u with seq := { u.seq with representOwed := .nextTake } } := by
    rw [mapWritten, if_pos (by rw [hq, hstate]), ht]
    rfl
  have hk : Kept u { u with seq := { u.seq with representOwed := .nextTake } } :=
    ⟨rfl, rfl, rfl, rfl, rfl, rfl, rfl, rfl, rfl, rfl, rfl, rfl, rfl, rfl, rfl, rfl, rfl, rfl, fun _ => .refl _⟩
  have hs : u.seq.state = .ready := by rw [hq, hstate]
  rw [e]
  refine ⟨hk.trans (kept_represent _), ?_, ?_, ?_⟩ <;> rw [represent, hs]
  · exact presentBegun_orderPresent (s := s) (c := c)
      (u := { u with seq := { u.seq with representOwed := .nextTake, state := .presenting } }) rfl (hq ▸ hc) (hx.trans hxpe)
      ht hh
  · exact (enterPresenting_does _).2.2.2.1
  · exact readyChanged_departed rfl _

/-- The answer of an owner that has kept its link leaves the link as `responded` has it. -/
theorem answer_eq_responded {l : LinkId} {r : Request} {b u : State} {k : Link} {st : Status} {p : List Byte}
    (hb : b.link l = Link.take r.code k) (hs : k.suppressed = false) (hk : Kept b u) :
    answer l ⟨st, p⟩ u = (answer l ⟨st, p⟩ u).responded l r st p := by
  have hl := hk.links l
  rw [hb] at hl
  obtain ⟨hrx, hframe, -, -, -, hsup, hout, -⟩ := hl
  have hn := hsup hs
  have hcode := hout hs
  obtain ⟨o, ho⟩ : ∃ o, (u.link l).outstanding = some o := by
    cases hx : (u.link l).outstanding with
    | none => rw [hx] at hcode; cases hcode
    | some o => exact ⟨o, rfl⟩
  have hc : o.code = r.code := by
    rw [ho] at hcode
    exact Option.some.inj hcode
  refine (modLink_eq_self ?_).symm
  simp only [answer, link_modLink, Link.answer, ho, hn, hc, hrx, hframe, Link.take]
  rfl

/-- A request that writes the map in READY: `m` and `v` are the map and the library that it leaves. -/
theorem request_represents {r : Request} {owner : State → State × Reply} {s : State} {c : Cursor} {m : Hmp}
    {v : Vector Weave 32} {p : List Byte} (ho : (s.link .p).isOpen = true) (hl : r.onLink .p = true) (h : s.idleReady)
    (hc : s.seq.cursor = some c)
    (hw : owner (s.awaited .p r) = accept (mapWritten { s.awaited .p r with hmp := m, wlb := v }) p) : ∃ t u : State,
    .next (request .p r .good owner s) = (.next t : Host.Outcome State Fault Refusal) ∧ t = u.responded .p r .ok p ∧
      t.hmp = m ∧ t.wlb = v ∧ s.presentBegun t c ∧ t.seq.representOwed = .nextTake ∧ t.seq.history = s.seq.history ∧
      t.chu = s.chu ∧ .readyChanged ∈ t.dlk.notices := by
  have hrep := mapWritten_represented (u := { s.awaited .p r with hmp := m, wlb := v }) h hc rfl rfl rfl
  have hs := ((isOpen_iff _).1 ho).2.2
  have e : request .p r .good owner s =
      answer .p ⟨.ok, p⟩ (mapWritten { s.awaited .p r with hmp := m, wlb := v }) := by
    rw [request_of_open ho]
    simp only [serve, hl, if_true, hw]
    rfl
  rw [e]
  obtain ⟨hk, hbegun, howed, hnotice⟩ := hrep
  exact ⟨_, _, rfl, answer_eq_responded (k := s.link .p) rfl hs hk, hk.hmp, hk.wlb, hbegun, howed, hk.history, hk.chu,
    hnotice⟩

/-- Settles O32: each request is `request_represents` of the map that it writes. -/
theorem mapWritesInReadyRepresent : Obligations.MapWritesInReadyRepresent := by
  intro s c ho h hc
  replace ho : (s.link .p).isOpen = true := ho
  have hw : s.writable = true := writable_iff.2 (.inr ⟨h.1, h.2.1⟩)
  refine ⟨fun n r hr => ?_, fun hooks hlen hmax hp => ?_, fun x hx hroom hp => ?_, fun x hx => ?_,
    fun v w n lifts hl hw1 hw2 hn1 hn2 hfree hfix => ?_⟩
  · obtain ⟨t, u, he, ht, hm, hv, hrest⟩ := request_represents (r := .setSection) (v := s.wlb) ho rfl h hc
      ((setSection_fin n r _).trans ((if_pos hw).trans (if_pos hr)))
    exact ⟨t, u, he, ht, hm, hv, hrest⟩
  · obtain ⟨t, u, he, ht, hm, hv, hrest⟩ := request_represents (r := .setDeadList) (v := s.wlb) ho rfl h hc
      ((setDeadList_eq hooks _).trans ((if_pos hw).trans (if_pos ⟨hmax, hp⟩)))
    exact ⟨t, u, (exec_setDeadList hlen s).trans he, ht, hm, hv, hrest⟩
  · have begun : ∀ dead : List Nat, dead.Pairwise (· < ·) → (∀ y, y ∈ dead ↔ y = x ∨ y ∈ s.hmp.dead) →
        addDeadHook x (s.awaited .p .addDeadHook) = accept (setDead dead (s.awaited .p .addDeadHook)) (b8 dead.length) →
        ∃ t u : State, exec (.addDeadHook x) s = .next t ∧ t = u.responded .p .addDeadHook .ok (b8 t.hmp.dead.length) ∧
          t.hmp.sections = s.hmp.sections ∧ t.hmp.dead.Pairwise (· < ·) ∧ (∀ y, y ∈ t.hmp.dead ↔ y = x ∨ y ∈ s.hmp.dead) ∧
          t.wlb = s.wlb ∧ s.presentBegun t c ∧ t.seq.representOwed = .nextTake ∧ t.seq.history = s.seq.history ∧
          t.chu = s.chu ∧ .readyChanged ∈ t.dlk.notices := by
      intro dead hasc hmem hwrite
      obtain ⟨t, u, he, ht, hm, hv, hrest⟩ := request_represents (r := .addDeadHook) (v := s.wlb) ho rfl h hc hwrite
      exact ⟨t, u, he, by rw [hm]; exact ht, by rw [hm]; rfl, by rw [hm]; exact hasc, by rw [hm]; exact hmem, hv, hrest⟩
    by_cases hin : x ∈ s.hmp.dead
    · exact begun s.hmp.dead hp (fun y => ⟨.inr, fun k => k.elim (fun e => e ▸ hin) id⟩)
        ((addDeadHook_eq hx _).trans ((if_pos hw).trans (if_pos hin)))
    · exact begun (insertHook x s.hmp.dead) (pairwise_insertHook x _ hp) (fun y => mem_insertHook x y _)
        ((addDeadHook_eq hx _).trans ((if_pos hw).trans ((if_neg hin).trans (if_pos (hroom.resolve_left hin)))))
  · obtain ⟨t, u, he, ht, hm, hv, hrest⟩ := request_represents (r := .removeDeadHook) (v := s.wlb) ho rfl h hc
      ((removeDeadHook_eq hx _).trans (if_pos hw))
    exact ⟨t, u, he, by rw [hm]; exact ht, hm, hv, hrest⟩
  · obtain ⟨t, u, he, ht, hm, hv, hrest⟩ := request_represents (r := .defineWeave) (m := s.hmp) ho rfl h hc
      ((defineWeave_free (s := s.awaited .p .defineWeave) hfree w n lifts).trans
        ((if_neg fun k => k.2 hw).trans ((if_pos ⟨hw1, hw2, hn1, hn2⟩).trans (congrArg (accept · []) (if_pos hfix)))))
    exact ⟨t, u, (exec_defineWeave hl v.1 s).trans he, ht, hm, hv, hrest⟩

/-! ### SELECT-DESIGN (R125) -/

theorem openToSettings_iff (s : State) : s.writable = true ↔ s.openToSettings := writable_iff

theorem selectDesign_outside {i : Nat} (h : 8 ≤ i) (c : Nat) (s : State) : selectDesign i c s = refuse s .badArgument := by
  rw [selectDesign, member_outside h]

theorem selectDesign_closed {i : Fin 8} {c : Nat} {s : State} (h : ¬s.openToSettings) :
    selectDesign i.1 c s = refuse s .wrongState := by
  rw [selectDesign, member_fin]
  exact if_neg (mt (openToSettings_iff s).1 h)

theorem selectDesign_invalid {i : Fin 8} {c : Nat} {s : State} (h : s.openToSettings) (hv : (s.slot i).state ≠ .valid) :
    selectDesign i.1 c s = refuse s .checkFailed := by
  rw [selectDesign, member_fin]
  refine (if_pos ((openToSettings_iff s).2 h)).trans ?_
  split
  next hx _ => exact absurd hx hv
  · rfl

theorem selectDesign_valid {i : Fin 8} {c : Nat} {d : Design} {s : State} (h : s.openToSettings)
    (hv : (s.slot i).state = .valid) (hd : s.design i = some d) : selectDesign i.1 c s =
      if c < d.height then accept (selectCursor ⟨i, (d.forward c).1, 0, 0, 0, s.seq.serial⟩ s)
        (b16 (d.forward c).1 ++ b16 s.seq.serial.toNat)
      else refuse s .badArgument := by
  rw [selectDesign, member_fin]
  refine (if_pos ((openToSettings_iff s).2 h)).trans ?_
  rw [hv, hd]

theorem presentBegun_departed {s t : State} {c : Cursor} (q : SeqState) (h : s.presentBegun t c) :
    s.presentBegun (departed q t) c := by
  unfold departed
  split
  · exact h
  · exact h

theorem refCount_departed (q : SeqState) (s : State) (i : Fin 8) (k : HoldReason) :
    (departed q s).refCount i k = s.refCount i k := by
  unfold departed
  split <;> rfl

/-- The job of a PRESENT order that expands anew claims STAGED and nothing else (R30). -/
theorem refCount_orderPresent {u : State} {c : Cursor} (hq : u.seq.state = .presenting) (hc : u.seq.cursor = some c)
    (hx : u.xpe = ⟨none, .empty⟩) (ht : u.hcc.isTaking = false) (i : Fin 8) :
    (orderPresent u).refCount i .cursor = u.refCount i .cursor := by
  have hr : u.seq.state ≠ .running := by rw [hq]; decide
  rw [orderPresent_eq hc hx ht,
    startJob_eq (s := { u with seq := { u.seq with present := some ⟨c, .expanding⟩ } }) hc (.inl hr), refCount_claim]
  rfl

/-- R30, R56: the cursor's slot keeps a CURSOR hold when the cursor moves into it. -/
theorem refCount_placeCursor_pos (x : SeqState) (c : Cursor) {s : State}
    (h : s.seq.cursor = none ∨ 0 < s.refCount c.slot .cursor) : 0 < (placeCursor x c s).refCount c.slot .cursor := by
  have hclaim := refCount_claim .cursor .cursor c.slot c.slot s
  have hrel := refCount_releaseCursor s.seq.cursor c.slot .cursor
    { claim .cursor c.slot s with seq := { s.seq with cursor := some c, serial := c.serial, state := x } }
  have hplace : (placeCursor x c s).refCount c.slot .cursor = s.refCount c.slot .cursor + 1 - cursorNaming c.slot s.seq.cursor := by
    refine hrel.trans ?_
    rw [if_pos rfl]
    exact congrArg (· - _) (hclaim.trans (by simp))
  rw [hplace]
  rcases h with h | h
  · rw [h]
    exact Nat.succ_pos _
  · cases s.seq.cursor with
    | none => exact Nat.succ_pos _
    | some k => simp only [cursorNaming]; split <;> omega

/-- R125 with nothing staged. -/
theorem selectCursor_begins {s : State} {c : Cursor} (hx : s.xpe = ⟨none, .empty⟩) (ht : s.hcc.isTaking = false) :
    s.presentBegun (selectCursor c s) c ∧
      (s.seq.cursor = none ∨ 0 < s.refCount c.slot .cursor → 0 < (selectCursor c s).refCount c.slot .cursor) ∧
      (s.seq.state = .ready → .readyChanged ∈ (selectCursor c s).dlk.notices) := by
  obtain ⟨u, hu⟩ : ∃ u : State, u = placeCursor .presenting c s := ⟨_, rfl⟩
  have hr := recounted_placeCursor .presenting c s
  rw [← hu] at hr
  have hxu : u.xpe = ⟨none, .empty⟩ := hr.xpe_eq.trans hx
  have hqu : u.seq.state = .presenting := congrArg Seq.state hr.seq_eq
  have hcu : u.seq.cursor = some c := congrArg Seq.cursor hr.seq_eq
  have htu : u.hcc.isTaking = false := by rw [hr.hcc_eq]; exact ht
  have e : selectCursor c s = departed s.seq.state (orderPresent u) := by
    rw [selectCursor_eq, ← hu, discardStaging_of_empty hxu, ite_self]
  rw [e]
  refine ⟨presentBegun_departed _ (presentBegun_orderPresent hqu hcu hxu htu hr.hcc_eq), fun h => ?_,
    fun h => readyChanged_departed h _⟩
  rw [refCount_departed, refCount_orderPresent hqu hcu hxu htu, hu]
  exact refCount_placeCursor_pos _ c h

theorem moveCursor_plk (c : Cursor) (s : State) : (moveCursor c s).plk = s.plk := by
  unfold moveCursor releaseCursor
  simp only
  split <;> split <;> simp

/-- Settles O46: an accepted selection is `selectCursor_begins` on the card that `forward_mod` finds. -/
theorem selectDesignSetsCursor : Obligations.SelectDesignSetsCursor := by
  intro s ho
  replace ho : (s.link .p).isOpen = true := ho
  refine ⟨fun i c hi => exec_refuses rfl ho rfl (selectDesign_outside hi ..),
    fun i c hn => exec_refuses rfl ho rfl (selectDesign_closed (s := s.awaited .p .selectDesign) hn),
    fun i c hw hv => exec_refuses rfl ho rfl (selectDesign_invalid (s := s.awaited .p .selectDesign) hw hv),
    fun i d c hw hv hd hc => exec_refuses rfl ho rfl
      ((selectDesign_valid (s := s.awaited .p .selectDesign) hw hv hd).trans (if_neg (Nat.not_lt.2 hc))),
    fun i d c k hw hv hd hc hk hcard hbefore hx ht => ?_⟩
  have hfor : (d.forward c).1 = (c + k) % d.height := congrArg Prod.fst (forward_mod hc hk hcard hbefore)
  obtain ⟨cur, hcur⟩ : ∃ cur : Cursor, cur = ⟨i, (c + k) % d.height, 0, 0, 0, s.seq.serial⟩ := ⟨_, rfl⟩
  obtain ⟨u, hu⟩ : ∃ u : State, u = s.awaited .p .selectDesign := ⟨_, rfl⟩
  have hown : selectDesign i.1 c u = accept (selectCursor cur u) (b16 ((c + k) % d.height) ++ b16 s.seq.serial.toNat) := by
    rw [hu]
    refine (selectDesign_valid (s := s.awaited .p .selectDesign) hw hv hd).trans ((if_pos hc).trans ?_)
    rw [hfor, hcur]
    rfl
  have hkept := kept_represent (moveCursor cur u)
  have hseq := moveCursor_seq cur u
  obtain ⟨hbegun, href, hnotice⟩ := selectCursor_begins (s := u) (c := cur) (by rw [hu]; exact hx)
    ((isTaking_eq_false_iff u).2 (by rw [hu]; exact ht))
  have hown' : selectDesign i.1 c (s.awaited .p .selectDesign) = accept (represent (moveCursor cur u))
      (b16 ((c + k) % d.height) ++ b16 s.seq.serial.toNat) := by rw [← hu]; exact hown
  obtain ⟨he, hresp⟩ := exec_accepts (c := .selectDesign i.1 c) rfl ho rfl hown' hkept
    (by rw [link_p, moveCursor_plk, hu]; rfl)
  have hus : u.hcc = s.hcc ∧ u.seq = s.seq ∧ u.fst = s.fst ∧ u.chu = s.chu := by
    rw [hu]
    exact ⟨rfl, rfl, rfl, rfl⟩
  obtain ⟨hhcc, husq, hfst, hchu⟩ := hus
  have hkserial : (represent (moveCursor cur u)).seq.serial = s.seq.serial := by rw [hkept.serial, hseq, hcur]
  have hkhist : (represent (moveCursor cur u)).seq.history = s.seq.history := by rw [hkept.history, hseq, husq]
  refine ⟨_, cur, he, hcur, ?_, hkserial, hkhist, hkept.chu.trans ((moveCursor_chu cur u).trans hchu), fun h => ?_, hresp,
    fun h => ?_⟩
  · have hb : s.presentBegun (selectCursor cur u) cur := by
      unfold State.presentBegun at hbegun ⊢
      rw [← hhcc]
      exact hbegun
    exact hb
  · have hslot : cur.slot = i := by rw [hcur]
    have h' := href (by rw [husq, hslot]; exact h.imp id fun k => by rw [State.refCount, State.slot, hfst]; exact k)
    rw [hslot] at h'
    exact h'
  · exact hnotice (husq ▸ h)

end Sys2Proof.Machine
end

section
/-! PROOFS. RESET-SEQUENCER (R143, R56, R96, R144, R159, R174). -/

namespace Sys2Proof.Machine

/-! ### The link of a request, whatever its owner does -/

/-- No owner withdraws a request: its link is kept through every elementary update. -/
theorem governed_keptLink (l : LinkId) (k : Link) : Governed fun s => k.kept (s.link l) :=
  Local.governed
    { link := fun {s} m f h _ hn => by
        by_cases hm : m = l
        · subst hm
          rw [link_modLink]
          exact h.trans hn.1
        · rwa [link_modLink_ne _ _ (Ne.symm hm)] }

/-- An answer to a request whose link was kept is sent. -/
theorem response_of_kept {a k : Link} {code : Byte} (r : Response) (hs : a.suppressed = false)
    (h : (Link.take code a).kept k) : (Link.answer r k).response = some r := by
  have hout := h.outstanding hs
  cases ho : k.outstanding with
  | none => rw [ho] at hout; cases hout
  | some o => simp [Link.answer, ho, h.suppressed hs]

/-- An owner that accepts: the answer follows what it did. -/
theorem request_accepts {l : LinkId} {r : Request} {owner : State → State × Reply} {s u : State} {p : List Byte}
    (ho : (s.link l).isOpen = true) (hl : r.onLink l = true) (hw : owner (s.awaited l r) = accept u p) :
    request l r .good owner s = answer l ⟨.ok, p⟩ u := by
  rw [request_of_open ho]
  simp only [serve, hl, if_true, hw]
  rfl

/-! ### The holds that a reset releases -/

theorem refCount_releaseProgram (i : Fin 8) (k : HoldReason) (s : State) : (releaseProgram s).refCount i k =
    s.refCount i k - (if k = .queue then queueNaming i s.chu.queue else 0) -
      (if k = .history then historyNaming i s.seq.history else 0) - if k = .cursor then cursorNaming i s.seq.cursor else 0 := by
  rw [releaseProgram, refCount_releaseCursor, refCount_releaseEntries, refCount_releaseChanges]

theorem refCount_releaseTaken {s : State} (ht : s.hcc.isTaking = true) (i : Fin 8) (k : HoldReason) :
    (releaseTaken s).refCount i k = s.refCount i k -
      (if k = .staged ∧ s.hcc.holdsReleased = false then planNaming i s.xpe.staging.plan else 0) -
      if k = .latched ∧ s.hcc.holdsReleased = false then planNaming i s.hcc.latched.plan else 0 := by
  unfold releaseTaken
  cases hr : s.hcc.holdsReleased
  · rw [if_pos (by rw [ht]; rfl)]
    refine (refCount_releaseLatched s.hcc.latched i k _).trans ?_
    rw [refCount_releaseStaged]
    simp
  · rw [if_neg (by simp)]
    simp

theorem releaseTaken_of_not_taking {s : State} (ht : s.hcc.isTaking = false) : releaseTaken s = s :=
  if_neg (by rw [ht]; exact Bool.false_ne_true)

theorem refCount_discardStaging {s : State} (ht : s.hcc.isTaking = false) (i : Fin 8) (k : HoldReason) :
    (discardStaging s).refCount i k = s.refCount i k - if k = .staged then planNaming i s.xpe.staging.plan else 0 := by
  have hrel : ∀ (p : Plan) (u : State), u.fst = s.fst → (release .staged p.cursor.slot u).refCount i k =
      s.refCount i k - if k = .staged then planNaming i (some p) else 0 := by
    intro p u hu
    rw [refCount_release, State.refCount, State.slot, hu]
    cases k <;> simp [planNaming, State.refCount, State.slot]
  unfold discardStaging
  split
  next n hn => rw [Hcc.isTaking, hn] at ht; cases ht
  · split
    next hs => rw [hs]; simp [State.refCount, State.slot, Staging.plan, planNaming]
    next p hs => rw [hs]; exact hrel p _ rfl
    next p _ hs => rw [hs]; exact hrel p _ rfl

theorem endRefresh_latched (s : State) : (endRefresh s).hcc.latched = s.hcc.latched := (presented_endRefresh s).latched

theorem refCount_dropAll {s : State} (ht : s.hcc.isTaking = false) (i : Fin 8) (k : HoldReason) :
    (dropAll s).refCount i k = s.refCount i k - if k = .latched then planNaming i s.hcc.latched.plan else 0 := by
  unfold dropAll
  split
  next n hn => rw [Hcc.isTaking, hn] at ht; cases ht
  · simp only
    rw [refCount_releaseLatched, endRefresh_latched]
    simp only [State.refCount, State.slot, endRefresh_fst]

/-- What RESET-SEQUENCER makes of the state before SEQ, CHU, WFT and GRD are set back. -/
def unwoven (s : State) : State := dropAll (discardStaging (releaseTaken (releaseProgram s)))

theorem releaseTaken_isTaking (s : State) : (releaseTaken s).hcc.isTaking = s.hcc.isTaking := by
  rw [releaseTaken_hcc]
  split <;> rfl

theorem releaseProgram_isTaking (s : State) : (releaseProgram s).hcc.isTaking = s.hcc.isTaking := by
  rw [(recounted_releaseProgram s).hcc_eq]

theorem unwoven_taking {s : State} (ht : s.hcc.isTaking = true) : unwoven s =
    { releaseTaken (releaseProgram s) with hcc := { (releaseTaken (releaseProgram s)).hcc with dropHeld := true } } := by
  have h : (releaseTaken (releaseProgram s)).hcc.isTaking = true := by
    rw [releaseTaken_isTaking, releaseProgram_isTaking, ht]
  rw [unwoven, discardStaging_taking h, dropAll_taking h]

theorem unwoven_not_taking {s : State} (ht : s.hcc.isTaking = false) :
    unwoven s = dropAll (discardStaging (releaseProgram s)) := by
  rw [unwoven, releaseTaken_of_not_taking (by rw [releaseProgram_isTaking, ht])]

/-- R143, R37: exact counts are all released. -/
theorem refCount_unwoven {s : State} (h : s.holdsExact) (i : Fin 8) (k : HoldReason) : (unwoven s).refCount i k = 0 := by
  have he : s.refCount i k = s.namedBy s.seq.cursor s.seq.history s.chu.queue i k := by
    rw [State.refCount, h i]
    cases k <;> rfl
  have hh := (recounted_releaseProgram s).hcc_eq
  have hx := (recounted_releaseProgram s).xpe_eq
  have hp := refCount_releaseProgram i k s
  rw [he] at hp
  cases ht : s.hcc.isTaking
  · have ht' : (releaseProgram s).hcc.isTaking = false := by rw [hh, ht]
    have hd : (discardStaging (releaseProgram s)).hcc.latched = s.hcc.latched := by
      rw [(presented_discardStaging _).latched, hh]
    rw [unwoven_not_taking ht, refCount_dropAll (by rw [discardStaging_isTaking, ht']), refCount_discardStaging ht', hp, hx, hd]
    cases k <;> simp [State.namedBy] <;> split <;> simp
  · rw [unwoven_taking ht]
    refine (refCount_releaseTaken (s := releaseProgram s) (by rw [hh, ht]) i k).trans ?_
    rw [hp, hx, hh]
    cases k <;> simp [State.namedBy] <;> cases s.hcc.holdsReleased <;> simp

/-! ### What a reset leaves -/

theorem kept_of_recounted {s t : State} (h : s.Recounted t) : Kept s t := by
  rw [h.only]
  exact kept_units s s.ang t.fst s.xpe s.hcc

theorem kept_releaseTaken (s : State) : Kept s (releaseTaken s) := by
  unfold releaseTaken
  split
  · exact (kept_of_recounted ((recounted_releaseStaged _ s).trans (recounted_releaseLatched _ _))).trans
      (kept_units _ _ _ _ _)
  · exact Kept.refl s

theorem kept_unwoven (s : State) : Kept s (unwoven s) :=
  (((kept_of_recounted (recounted_releaseProgram s)).trans (kept_releaseTaken _)).trans (kept_discardStaging _)).trans
    (kept_dropAll _)

/-- The owner map and the free count stay as they are. -/
def State.SameStore (s t : State) : Prop := t.fst.owner = s.fst.owner ∧ t.fst.free = s.fst.free

theorem State.SameStore.trans {s t u : State} (h : s.SameStore t) (k : t.SameStore u) : s.SameStore u :=
  ⟨k.1.trans h.1, k.2.trans h.2⟩

theorem sameStore_of_fst {s t : State} (h : t.fst = s.fst) : s.SameStore t := by rw [State.SameStore, h]; exact ⟨rfl, rfl⟩

theorem State.Recounted.sameStore {s t : State} (h : s.Recounted t) : s.SameStore t := ⟨h.owner, h.free⟩

theorem sameStore_discardStaging (s : State) : s.SameStore (discardStaging s) := by
  unfold discardStaging
  split
  · exact ⟨rfl, rfl⟩
  · split <;> exact ⟨rfl, rfl⟩

theorem sameStore_dropAll (s : State) : s.SameStore (dropAll s) := by
  unfold dropAll
  split
  · exact ⟨rfl, rfl⟩
  · exact (sameStore_of_fst (endRefresh_fst s)).trans ((recounted_releaseLatched _ _).sameStore)

theorem sameStore_releaseTaken (s : State) : s.SameStore (releaseTaken s) := by
  unfold releaseTaken
  split
  · exact ((recounted_releaseStaged _ s).trans (recounted_releaseLatched _ _)).sameStore
  · exact ⟨rfl, rfl⟩

theorem sameStore_unwoven (s : State) : s.SameStore (unwoven s) :=
  (((recounted_releaseProgram s).sameStore.trans (sameStore_releaseTaken _)).trans (sameStore_discardStaging _)).trans
    (sameStore_dropAll _)

/-- R143 outside a TAKE: DROP-ALL, and nothing is staged. -/
theorem unwoven_dropped {s : State} (ht : s.hcc.isTaking = false) : (unwoven s).xpe = ⟨none, .empty⟩ ∧
    ∃ (e : Vector Nat 96) (r : List Nat), (unwoven s).hcc = { s.hcc with
      transfer := .idle, latched := .closed, lastStrobe := some .drop, echoErrors := e, refreshClear := r } := by
  have ht' : (releaseProgram s).hcc.isTaking = false := by rw [releaseProgram_isTaking, ht]
  rw [unwoven_not_taking ht]
  refine ⟨by rw [dropAll_xpe, discardStaging_xpe ht'], ?_⟩
  obtain ⟨e, r, h, -⟩ := dropAll_hcc (s := discardStaging (releaseProgram s)) (by rw [discardStaging_isTaking, ht'])
  refine ⟨e, r, h.trans ?_⟩
  rcases discardStaging_hcc (releaseProgram s) with k | k <;> rw [k, (recounted_releaseProgram s).hcc_eq]

/-- R110, R143: during a TAKE the DROP-ALL is held and the picks stay. -/
theorem unwoven_held {s : State} (ht : s.hcc.isTaking = true) : (unwoven s).xpe = s.xpe ∧
    (unwoven s).hcc = { s.hcc with dropHeld := true, holdsReleased := true } := by
  have ht' : (releaseProgram s).hcc.isTaking = true := by rw [releaseProgram_isTaking, ht]
  rw [unwoven_taking ht]
  constructor
  · exact (releaseTaken_xpe _).trans (recounted_releaseProgram s).xpe_eq
  · show ({ (releaseTaken (releaseProgram s)).hcc with dropHeld := true } : Hcc) = _
    rw [releaseTaken_hcc, if_pos ht', (recounted_releaseProgram s).hcc_eq]

theorem resetWeaving_eq (s : State) : resetWeaving s = departed s.seq.state (stallOff { unwoven s with
    seq := (unwoven s).seq.weaveReset, chu := (unwoven s).chu.weaveReset, wft := (unwoven s).wft.weaveReset,
    grd := (unwoven s).grd.weaveReset }) := rfl

/-- Settles O47: the fields of `unwoven`, with SEQ, CHU, WFT and GRD set back. -/
theorem resetSequencerEmptiesProgram : Obligations.ResetSequencerEmptiesProgram := by
  intro s ho
  replace ho : (s.link .p).isOpen = true := ho
  obtain ⟨u, hu⟩ : ∃ u : State, u = unwoven (s.awaited .p .resetSequencer) := ⟨_, rfl⟩
  obtain ⟨v, hv⟩ : ∃ v : State, v = stallOff { u with
    seq := u.seq.weaveReset, chu := u.chu.weaveReset, wft := u.wft.weaveReset, grd := u.grd.weaveReset } := ⟨_, rfl⟩
  have hreset : resetWeaving (s.awaited .p .resetSequencer) = departed s.seq.state v := by
    rw [resetWeaving_eq, hv, hu]
    rfl
  have hk : Kept (s.awaited .p .resetSequencer) u := by rw [hu]; exact kept_unwoven _
  have hstore : (s.awaited .p .resetSequencer).SameStore u := by rw [hu]; exact sameStore_unwoven _
  have hlink : (Link.take Request.resetSequencer.code s.plk).kept (departed s.seq.state v).plk := by
    rw [← hreset]
    exact (governed_keptLink .p _).reset (s := s.awaited .p .resetSequencer) (Link.kept.refl _)
  have hq : v.seq = s.seq.weaveReset := by
    have h := resetWeaving_seq (s.awaited .p .resetSequencer)
    rw [hreset, departed_seq] at h
    exact h
  have hgrd : u.grd = s.grd := by
    rw [hu, unwoven, dropAll_grd, discardStaging_grd, releaseTaken_grd, (recounted_releaseProgram _).grd_eq]
    rfl
  have hang : u.ang = s.ang := by
    rw [hu, unwoven, dropAll_ang, discardStaging_ang, releaseTaken_ang, (recounted_releaseProgram _).ang_eq]
    rfl
  have hdropped : s.hcc.isTaking = false → u.xpe = ⟨none, .empty⟩ ∧ ∃ (e : Vector Nat 96) (r : List Nat), u.hcc = { s.hcc with
      transfer := .idle, latched := .closed, lastStrobe := some .drop, echoErrors := e, refreshClear := r } := by
    rw [hu]
    exact unwoven_dropped (s := s.awaited .p .resetSequencer)
  have hheld : s.hcc.isTaking = true → u.xpe = s.xpe ∧ u.hcc = { s.hcc with dropHeld := true, holdsReleased := true } := by
    rw [hu]
    exact unwoven_held (s := s.awaited .p .resetSequencer)
  have hbus : u.hcc.census = s.hcc.census ∧ u.hcc.status = s.hcc.status ∧ u.hcc.budget = s.hcc.budget := by
    cases ht : s.hcc.isTaking
    · obtain ⟨-, e, r, h⟩ := hdropped ht
      rw [h]; exact ⟨rfl, rfl, rfl⟩
    · rw [(hheld ht).2]; exact ⟨rfl, rfl, rfl⟩
  have hrefs : s.holdsExact → ∀ i k, u.refCount i k = 0 := by
    rw [hu]
    exact fun h => refCount_unwoven (s := s.awaited .p .resetSequencer) h
  have hchu : (departed s.seq.state v).chu = s.chu.weaveReset := by rw [departed_chu, hv]; exact congrArg Chu.weaveReset hk.chu
  have hgrd' : (departed s.seq.state v).grd = s.grd.weaveReset := by rw [departed_grd, hv]; exact congrArg Grd.weaveReset hgrd
  have hang' : (departed s.seq.state v).ang = { s.ang with stallWatch := .off, stallTimer := none } := by
    rw [departed_ang, hv, ← hang]
    rfl
  have hwft : (departed s.seq.state v).wft = u.wft.weaveReset := by rw [departed_wft, hv]; rfl
  have hhcc : (departed s.seq.state v).hcc = u.hcc := by rw [departed_hcc, hv]; rfl
  have hxpe : (departed s.seq.state v).xpe = u.xpe := by rw [departed_xpe, hv]; rfl
  have hfst : (departed s.seq.state v).fst = u.fst := by rw [departed_fst, hv]; rfl
  have hother : (departed s.seq.state v).wlb = s.wlb ∧ (departed s.seq.state v).hmp = s.hmp ∧
      (departed s.seq.state v).draws = s.draws := by
    rw [departed_wlb, departed_hmp, departed_draws, hv]
    exact ⟨hk.wlb, hk.hmp, hk.draws⟩
  have hready : s.seq.state = .ready → .readyChanged ∈ (departed s.seq.state v).dlk.notices :=
    fun h => readyChanged_departed h v
  rw [← departed_seq s.seq.state v] at hq
  have hexec : exec .resetSequencer s = .next (answer .p ⟨.ok, []⟩ (departed s.seq.state v)) :=
    congrArg _ ((request_accepts ho rfl rfl).trans (congrArg (answer .p _) hreset))
  generalize departed s.seq.state v = w at hq hchu hgrd' hang' hwft hhcc hxpe hfst hother hready hlink hexec
  obtain ⟨hwlb, hhmp, hdraws⟩ := hother
  refine ⟨_, hexec, response_of_kept _ ((isOpen_iff _).1 ho).2.2 hlink, ?_⟩
  show w.seq = _ ∧ w.chu.queue = [] ∧ w.chu.nextId = _ ∧ (∀ k, w.chu.comps.get k = _) ∧ (∀ f, w.wft.feeders.get f = _) ∧
    w.wft.window = none ∧ w.wft.capture = none ∧ w.wft.report = none ∧ w.wft.withheld = false ∧ w.wft.verdict = _ ∧
    w.wft.limit = _ ∧ w.wft.extra = _ ∧ w.wft.stray = _ ∧ w.grd = _ ∧ w.ang = _ ∧ _
  rw [hq, hchu, hwft, hgrd', hang']
  refine ⟨rfl, rfl, rfl, fun k => ?_, fun f => ?_, rfl, rfl, rfl, rfl, hk.verdict, hk.limit, hk.extra, hk.stray, rfl, rfl,
    fun hn => ?_, fun ht => ?_, fun he j => ?_, hready, hwlb, hhmp, ?_, ?_, hdraws, ?_, ?_, ?_⟩
  · exact get_map ..
  · exact (get_map ..).trans (congrArg (fun x : Vector Feeder 8 => { x.get f with failures := 0 }) hk.feeders)
  · obtain ⟨hx, e, r, h⟩ := hdropped ((isTaking_eq_false_iff s).2 hn)
    show w.xpe = _ ∧ w.hcc.latched = _ ∧ w.hcc.transfer = _ ∧ w.hcc.lastStrobe = _
    rw [hxpe, hhcc, hx, h]
    exact ⟨rfl, rfl, rfl, rfl⟩
  · obtain ⟨hx, h⟩ := hheld ((isTaking_iff_takes s).2 ht)
    exact ⟨hhcc.trans h, hxpe.trans hx⟩
  · have hzero : ∀ k, (w.slot j).refs.count k = 0 := fun k => by
      rw [State.slot, hfst]
      exact hrefs he j k
    rw [← Bool.not_eq_true]
    intro hslot
    obtain ⟨k, hpos⟩ := (Slot.held_iff _).1 hslot
    exact absurd (hzero k) (Nat.ne_of_gt hpos)
  · exact (congrArg Fst.owner hfst).trans hstore.1
  · exact (congrArg Fst.free hfst).trans hstore.2
  · exact (congrArg Hcc.census hhcc).trans hbus.1
  · exact (congrArg Hcc.status hhcc).trans hbus.2.1
  · exact (congrArg Hcc.budget hhcc).trans hbus.2.2

end Sys2Proof.Machine
end

section
/-! PROOFS. The completions of an expansion and of a TAKE (R65, R70, R109, R110, R126, R134). -/

namespace Sys2Proof.Machine

/-! ### The completion of an expansion -/

theorem exec_jobCompletion_none {s : State} (h : s.xpe.job = none) : exec .jobCompletion s = .next s := by
  show execJobCompletion s = _
  rw [execJobCompletion, h]

theorem exec_jobCompletion_some {s : State} {j : Job} (h : s.xpe.job = some j) :
    exec .jobCompletion s = .next (reportExpansion (completeJob j s)) := by
  show execJobCompletion s = _
  rw [execJobCompletion, h]

theorem completeJob_filling {s : State} {p : Plan} (h : s.xpe.staging = .filling p) (j : Job) : completeJob j s =
    { s with xpe := ⟨none, .complete { p with complete := true } (s.image j.snapshot j.hooks)⟩ } := by
  rw [completeJob, h]

theorem reportExpansion_of_ne {s : State} (h : ∀ k, s.seq.present = some k → k.stage ≠ .expanding) :
    reportExpansion s = s := by
  unfold reportExpansion
  split
  next k hk => exact if_neg (h k hk)
  · rfl

theorem reportExpansion_expanding {s : State} {k : PresentJob} (h : s.seq.present = some k) (hk : k.stage = .expanding) :
    reportExpansion s = startTransfer { s with seq := { s.seq with present := some { k with stage := .transferring } } } := by
  rw [reportExpansion, h]
  exact if_pos hk

theorem image_getElem? (s : State) (c : Cursor) {n h : Nat} (hh : h < n) : (s.image c n)[h]? = some (s.lift c h) := by
  simp [State.image, hh]

/-- Settles O43: the image is that of the snapshot; a PRESENT job goes on to its transfer by `startTransfer_eq`. -/
theorem jobCompletionFillsStaging : Obligations.JobCompletionFillsStaging := by
  intro s
  refine ⟨exec_jobCompletion_none, fun j p hj hp => ⟨s.image j.snapshot j.hooks, by simp [State.image],
    fun h hh => image_getElem? s _ hh, fun hne => ?_, fun k hk hstage hc ht hr => ?_⟩⟩
  · rw [exec_jobCompletion_some hj, completeJob_filling hp]
    exact congrArg _ (reportExpansion_of_ne hne)
  · rw [exec_jobCompletion_some hj, completeJob_filling hp]
    have e := reportExpansion_expanding (s := { s with
      xpe := ⟨none, .complete { p with complete := true } (s.image j.snapshot j.hooks)⟩ }) hk hstage
    exact congrArg _ (e.trans (startTransfer_eq (p := { p with complete := true }) rfl hc ((isTaking_eq_false_iff s).2 ht) hr))

/-! ### A PRESENT order that finds nothing in the buffer -/

theorem discardStaging_of_staging_empty {s : State} (h : s.xpe.staging = .empty) (ht : s.hcc.isTaking = false) :
    discardStaging s = { s with xpe := ⟨none, .empty⟩ } := by
  unfold discardStaging
  split
  next n hn => rw [Hcc.isTaking, hn] at ht; cases ht
  · rw [h]

/-- What a PRESENT order makes of `s` whose buffer it finds EMPTY, for the plan `ch` of the cursor pick `c` (R62, R69). -/
def expanding (c : Cursor) (s : State) : State :=
  let ch := s.wft.choose (s.cardOf c).weft
  claim .staged c.slot { s with
    wft := ch.wft
    seq := { s.seq with present := some ⟨c, .expanding⟩ }
    xpe := ⟨some ⟨.present, c, Config.hooksPerModule * s.hcc.census⟩, .filling ⟨c, ch.feeder, ch.group, (s.cardOf c).mark, false, false⟩⟩ }

theorem presentCursor_of_staging_empty {s : State} {c : Cursor} (hr : s.seq.state ≠ .running) (hc : s.seq.cursor = some c)
    (hx : s.xpe.staging = .empty) (ht : s.hcc.isTaking = false) : presentCursor s = expanding c s := by
  unfold presentCursor
  rw [hx]
  show startJob .present (beginPresent .expanding (discardStaging s)) = _
  rw [discardStaging_of_staging_empty hx ht, beginPresent]
  exact (startJob_eq (s := { s with
    xpe := ⟨none, .empty⟩, seq := { s.seq with present := s.seq.cursor.map fun c => ⟨c, .expanding⟩ } }) hc (.inl hr)).trans
    (by rw [hc]; rfl)

/-- The buffer is EMPTY, or holds the pick of a PRESENT job, which an order or a find step discards (R71, R134). -/
def State.Discardable (s : State) : Prop := s.seq.present = none → s.xpe.staging = .empty

theorem endPresent_seq (s : State) : (endPresent s).seq = { s.seq with present := none } := by
  unfold endPresent
  split
  next h => rw [← h]
  · exact discardStaging_seq _

theorem endPresent_staging {s : State} (h : s.Discardable) (ht : s.hcc.isTaking = false) :
    (endPresent s).xpe.staging = .empty := by
  unfold endPresent
  split
  next hn => exact h hn
  · rw [discardStaging_xpe (by exact ht)]

theorem endPresent_hcc (s : State) : (endPresent s).hcc.latched = s.hcc.latched ∧ (endPresent s).hcc.census = s.hcc.census := by
  refine ⟨(presented_endPresent s).latched, ?_⟩
  unfold endPresent
  split
  · rfl
  · rcases discardStaging_hcc { s with seq := { s.seq with present := none } } with h | h <;> rw [h]

/-- R69, R71: an order that finds nothing of the cursor pick in the buffer. -/
theorem orderPresent_of_discardable {s : State} {c : Cursor} (hr : s.seq.state ≠ .running) (hc : s.seq.cursor = some c)
    (ht : s.hcc.isTaking = false) (hx : s.Discardable) : orderPresent s = expanding c (endPresent s) := by
  have he := presented_endPresent s
  rw [orderPresent_not_taking ht]
  exact presentCursor_of_staging_empty (by rw [he.state]; exact hr) (by rw [he.kept.cursor]; exact hc)
    (endPresent_staging hx ht) (by rw [endPresent_isTaking, ht])

/-! ### The unwind of an entry (R135) -/

/-- R155 touches the references, the queue and the P-link. -/
theorem restoreChange_only (a : AppliedChange) (s : State) : restoreChange a s = { s with
    fst := (restoreChange a s).fst, chu := (restoreChange a s).chu, plk := (restoreChange a s).plk } := by
  unfold restoreChange dropTail
  dsimp only
  split
  · rfl
  · split <;> rfl

theorem unwindChanges_only (e : HistEntry) (s : State) : unwindChanges e s = { s with
    fst := (unwindChanges e s).fst, chu := (unwindChanges e s).chu, plk := (unwindChanges e s).plk } := by
  unfold unwindChanges
  cases e.applied with
  | none => rfl
  | some a =>
    dsimp only
    rw [restoreChange_only a s]

/-- R135 with nothing staged: of the hook chain and the expander only a job can go. -/
theorem unwind_of_staging_empty (e : HistEntry) {s : State} (hx : s.xpe.staging = .empty) (ht : s.hcc.isTaking = false) :
    (unwind e s).hcc = s.hcc ∧ (unwind e s).xpe.staging = .empty ∧ (unwind e s).wft = s.wft.restore e.group ∧
      (unwind e s).grd = s.grd := by
  obtain ⟨u, hu⟩ : ∃ u : State, u = { unwindChanges e s with
    seq := { (unwindChanges e s).seq with woven := (unwindChanges e s).seq.woven - 1 }
    wft := (unwindChanges e s).wft.restore e.group } := ⟨_, rfl⟩
  have hur : unwind e s = releaseEntry e { moveCursor e.cursor u with
      seq := { (moveCursor e.cursor u).seq with history := (moveCursor e.cursor u).seq.history.dropLast } } := by
    rw [hu]; rfl
  have hv := recounted_placeCursor u.seq.state e.cursor u
  have hm : moveCursor e.cursor u = if u.seq.cursor = some e.cursor then placeCursor u.seq.state e.cursor u
      else discardStaging (placeCursor u.seq.state e.cursor u) := rfl
  have ho := unwindChanges_only e s
  have huh : u.hcc = s.hcc ∧ u.xpe = s.xpe ∧ u.wft = s.wft.restore e.group ∧ u.grd = s.grd := by
    rw [hu, ho]
    exact ⟨rfl, rfl, rfl, rfl⟩
  obtain ⟨hhcc, hxpe, hwft, hgrd⟩ := huh
  have hr := fun v => recounted_releaseEntry e v
  rw [hur, (hr _).hcc_eq, (hr _).xpe_eq, (hr _).wft_eq, (hr _).grd_eq]
  show (moveCursor e.cursor u).hcc = _ ∧ (moveCursor e.cursor u).xpe.staging = _ ∧ (moveCursor e.cursor u).wft = _ ∧
    (moveCursor e.cursor u).grd = _
  rw [hm, ← hhcc, ← hwft, ← hgrd]
  split
  · rw [hv.hcc_eq, hv.xpe_eq, hv.wft_eq, hv.grd_eq]
    exact ⟨rfl, by rw [← hx, ← hxpe], rfl, rfl⟩
  · rw [discardStaging_of_staging_empty (by rw [hv.xpe_eq]; exact hxpe ▸ hx) (by rw [hv.hcc_eq]; exact hhcc ▸ ht)]
    exact ⟨hv.hcc_eq, rfl, hv.wft_eq, hv.grd_eq⟩

/-! ### Find steps (R134) -/

/-- FINDING with nothing staged but the pick of a PRESENT job, and no TAKE in progress: `l` is the record and `n` the census
of the hook chain. -/
structure State.Finds (s : State) (l : Latched) (n : Nat) : Prop where
  state : s.seq.state = .finding
  taking : s.hcc.isTaking = false
  discardable : s.Discardable
  latched : s.hcc.latched = l
  census : s.hcc.census = n

theorem findStep_of_not_taking {s : State} (ht : s.hcc.isTaking = false) : findStep s =
    s.seq.history.getLast?.elim (trigger .historyEnd (endPresent s)) fun e => orderPresent (unwind e (endPresent s)) := by
  have hh : (endPresent s).seq.history = s.seq.history := by rw [endPresent_seq]
  have e : findStep s = match (endPresent s).seq.history.getLast? with
      | none => trigger .historyEnd (endPresent s)
      | some e => orderPresent (unwind e (endPresent s)) := by
    unfold findStep
    cases h : s.hcc.transfer <;> simp [Hcc.isTaking, h] at ht <;> rfl
  rw [e, hh]
  cases s.seq.history.getLast? <;> rfl

/-- SEQ after a find step has unwound the entry `e`, with `h` left of the history. -/
def Seq.unwound (q : Seq) (h : List HistEntry) (e : HistEntry) (n : Nat) : Seq :=
  { q with
    cursor := some e.cursor, serial := e.cursor.serial, history := h, woven := q.woven - BitVec.ofNat 32 n
    present := some ⟨e.cursor, .expanding⟩ }

theorem findStep_unwinds {s : State} {l : Latched} {n : Nat} {h : List HistEntry} {e : HistEntry} (F : s.Finds l n)
    (hh : s.seq.history = h ++ [e]) : (findStep s).Finds l n ∧ (findStep s).seq = s.seq.unwound h e 1 ∧
      (findStep s).xpe.job = some ⟨.present, e.cursor, 128 * n⟩ := by
  obtain ⟨hstate, ht, hd, hl, hn⟩ := F
  obtain ⟨w, hw⟩ : ∃ w : State, w = endPresent s := ⟨_, rfl⟩
  have htw : w.hcc.isTaking = false := by rw [hw, endPresent_isTaking, ht]
  have hxw : w.xpe.staging = .empty := by rw [hw]; exact endPresent_staging hd ht
  have hqw : w.seq = { s.seq with present := none } := by rw [hw, endPresent_seq]
  have hbus : w.hcc.latched = l ∧ w.hcc.census = n := by
    obtain ⟨h1, h2⟩ := endPresent_hcc s
    rw [hw, h1, h2]
    exact ⟨hl, hn⟩
  obtain ⟨hhcc, hxpe, -, -⟩ := unwind_of_staging_empty e hxw htw
  have hq := unwind_seq e w
  have hfind : findStep s = orderPresent (unwind e w) := by
    rw [findStep_of_not_taking ht, hh, List.getLast?_concat, hw]
    rfl
  have hp : (unwind e w).seq.present = none := by rw [hq, hqw]
  have hend : endPresent (unwind e w) = unwind e w := by rw [endPresent, hp]
  have horder := orderPresent_of_discardable (s := unwind e w) (c := e.cursor)
    (by rw [hq, hqw]; show s.seq.state ≠ _; rw [hstate]; decide) (by rw [hq]) (by rw [hhcc, htw]) (fun _ => hxpe)
  rw [hend] at horder
  rw [hfind, horder]
  have hseq : (expanding e.cursor (unwind e w)).seq = s.seq.unwound h e 1 := by
    show { (unwind e w).seq with present := some ⟨e.cursor, .expanding⟩ } = _
    rw [hq, hqw]
    simp only [hh, List.dropLast_concat]
    rfl
  refine ⟨⟨by rw [hseq]; exact hstate, ?_, fun hn => absurd (hseq ▸ hn) nofun, ?_, ?_⟩, hseq, ?_⟩
  · show (unwind e w).hcc.isTaking = false
    rw [hhcc, htw]
  · show (unwind e w).hcc.latched = l
    rw [hhcc, hbus.1]
  · show (unwind e w).hcc.census = n
    rw [hhcc, hbus.2]
  · show some (⟨.present, e.cursor, 128 * (unwind e w).hcc.census⟩ : Job) = _
    rw [hhcc, hbus.2]

/-- Lists, built up at their end. -/
theorem reverse_induction {α : Type} {P : List α → Prop} (nil : P []) (concat : ∀ l x, P l → P (l ++ [x])) (l : List α) : P l := by
  rw [← l.reverse_reverse]
  induction l.reverse with
  | nil => exact nil
  | cons x k ih =>
    rw [List.reverse_cons]
    exact concat _ _ ih

/-- R134 step 1: the find steps that waited unwind one entry each. -/
theorem takeFindSteps_unwinds {l : Latched} {n : Nat} {h : List HistEntry} {e : HistEntry} (es : List HistEntry) :
    ∀ {s : State}, s.Finds l n → s.seq.history = h ++ e :: es → s.seq.findWaiting = es.length + 1 →
      (takeFindSteps (es.length + 1) s).Finds l n ∧
      (takeFindSteps (es.length + 1) s).seq = { s.seq.unwound h e (es.length + 1) with findWaiting := 0 } ∧
      (takeFindSteps (es.length + 1) s).xpe.job = some ⟨.present, e.cursor, 128 * n⟩ := by
  have next : ∀ {k : Nat} {s : State}, s.Finds l n → s.seq.findWaiting = k + 1 →
      takeFindSteps (k + 1) s = takeFindSteps k (findStep { s with seq := { s.seq with findWaiting := k } }) := by
    intro k s F hw
    rw [takeFindSteps, if_pos ⟨F.state, by omega⟩, hw]
    rfl
  have lowered : ∀ {k : Nat} {s : State}, s.Finds l n → ({ s with seq := { s.seq with findWaiting := k } } : State).Finds l n :=
    fun F => ⟨F.state, F.taking, F.discardable, F.latched, F.census⟩
  induction es using reverse_induction with
  | nil =>
    intro s F hh hw
    rw [List.length_nil] at hw ⊢
    rw [next F hw]
    exact findStep_unwinds (lowered F) hh
  | concat es x ih =>
    intro s F hh hw
    rw [List.length_append, List.length_singleton] at hw ⊢
    obtain ⟨F', hq, -⟩ := findStep_unwinds (h := h ++ e :: es) (e := x) (lowered (k := es.length + 1) F) (by
      show s.seq.history = _
      rw [hh]; simp)
    rw [next F hw]
    obtain ⟨F'', hq', hjob⟩ := ih F' (by rw [hq]; rfl) (by rw [hq]; rfl)
    refine ⟨F'', hq'.trans ?_, hjob⟩
    rw [hq]
    have hwoven : s.seq.woven - BitVec.ofNat 32 1 - BitVec.ofNat 32 (es.length + 1) =
        s.seq.woven - BitVec.ofNat 32 (es.length + 1 + 1) := by
      rw [BitVec.ofNat_add (es.length + 1), BitVec.sub_sub, BitVec.add_comm]
    simp only [Seq.unwound, hwoven]

/-! ### The stages of a TAKE completion (R109, R110, R126) -/

theorem exec_takeCompletion_of_not_takes {s : State} (h : ¬s.takes) : exec .takeCompletion s = .next s := by
  show execTakeCompletion s = _
  unfold execTakeCompletion
  split
  next n hn => exact absurd ⟨n, hn⟩ h
  all_goals rfl

theorem exec_takeCompletion {s : State} (h : s.takes) : exec .takeCompletion s = .next (takeEnds s) := by
  obtain ⟨n, hn⟩ := h
  show execTakeCompletion s = _
  rw [execTakeCompletion, hn]

/-- The TAKE takes its image, or meets the end of the record that RESET-SEQUENCER ordered. -/
def landed (s : State) : State := if s.hcc.holdsReleased then closeReleased s else takeHeldDrop (latchStaged s)

theorem takeEnds_eq (s : State) : takeEnds s =
    takePresentOrder (takeFindSteps (finishPresent (landed s)).seq.findWaiting (finishPresent (landed s))) := rfl

theorem landed_released {s : State} (h : s.hcc.holdsReleased = true) : landed s = closeReleased s := if_pos h

/-- R109: the staged pick becomes the record; `f` is the store with the claim and the releases. -/
def latched (p : Plan) (image : List Bool) (f : Fst) (s : State) : State :=
  { s with
    fst := f
    hcc := { s.hcc with transfer := .idle, latched := .pick p image }
    xpe := { s.xpe with staging := .empty }
    seq := { s.seq with representOwed := s.seq.representOwed.taken } }

/-- The store after R109. -/
def latchedFst (p : Plan) (s : State) : Fst :=
  (release .staged p.cursor.slot (releaseLatched s.hcc.latched (claim .latched p.cursor.slot s))).fst

theorem latchStaged_eq {s : State} {p : Plan} {image : List Bool} (h : s.xpe.staging = .complete p image) :
    latchStaged s = latched p image (latchedFst p s) s := by
  rw [latchStaged, h]
  unfold releaseLatched latchedFst latched
  cases hl : s.hcc.latched.plan with
  | none => simp only [releaseLatched, hl]; rfl
  | some q => simp only [releaseLatched, hl]; rfl

theorem takeHeldDrop_of_not_held {s : State} (h : s.hcc.dropHeld = false) : takeHeldDrop s = s :=
  if_neg (by rw [h]; exact Bool.false_ne_true)

/-- R110: the DROP-ALL that was held closes the modules on the pick just latched. -/
theorem takeHeldDrop_latched {s : State} (p : Plan) (image : List Bool) (f : Fst) (h : s.hcc.dropHeld = true) :
    takeHeldDrop (latched p image f s) = { latched p image f s with
      fst := (release .latched p.cursor.slot { s with fst := f }).fst
      hcc := { s.hcc with transfer := .idle, latched := .closed, lastStrobe := some .drop, dropHeld := false } } := by
  rw [takeHeldDrop, if_pos (by exact h)]
  rfl

/-- What stands after R109 and R110, whether a DROP-ALL was held or not. -/
structure Landed (p : Plan) (image : List Bool) (s t : State) : Prop where
  seq : t.seq = { s.seq with representOwed := s.seq.representOwed.taken }
  xpe : t.xpe = { s.xpe with staging := .empty }
  latched : t.hcc.latched = if s.hcc.dropHeld then .closed else .pick p image
  transfer : t.hcc.transfer = .idle
  census : t.hcc.census = s.hcc.census
  grd : t.grd = s.grd

theorem landed_landed {s : State} {p : Plan} {image : List Bool} (hx : s.xpe.staging = .complete p image)
    (hr : s.hcc.holdsReleased = false) : Landed p image s (landed s) := by
  rw [landed, if_neg (by rw [hr]; exact Bool.false_ne_true), latchStaged_eq hx]
  cases hd : s.hcc.dropHeld
  · rw [takeHeldDrop_of_not_held (by exact hd)]
    exact ⟨rfl, rfl, by rw [hd]; rfl, rfl, rfl, rfl⟩
  · rw [takeHeldDrop_latched p image _ hd]
    exact ⟨rfl, rfl, by rw [hd]; rfl, rfl, rfl, rfl⟩

theorem finishPresent_of_ne {s : State} (h : ∀ j, s.seq.present = some j → j.stage ≠ .taking) : finishPresent s = s := by
  unfold finishPresent
  split
  next j hj => exact if_neg (h j hj)
  · rfl

theorem finishPresent_taking {s : State} {j : PresentJob} (h : s.seq.present = some j) (hj : j.stage = .taking) :
    finishPresent s = if s.seq.state = .presenting
      then enterReady (raise .p .presentDone { s with seq := { s.seq with present := none } })
      else findExitCheck (raise .p .presentDone { s with seq := { s.seq with present := none } }) := by
  rw [finishPresent, h]
  exact if_pos hj

theorem takeFindSteps_zero (s : State) : takeFindSteps 0 s = s := rfl

theorem takePresentOrder_of_none {s : State} (h : s.seq.presentWaiting = false) : takePresentOrder s = s :=
  if_neg (by rw [h]; exact Bool.false_ne_true)

theorem takePresentOrder_waiting {s : State} (h : s.seq.presentWaiting = true) :
    takePresentOrder s = orderPresent { s with seq := { s.seq with presentWaiting := false } } := if_pos h

/-- Nothing waited for the completion. -/
theorem takeEnds_unawaited {s : State} (hf : (finishPresent (landed s)).seq.findWaiting = 0)
    (hp : (finishPresent (landed s)).seq.presentWaiting = false) : takeEnds s = finishPresent (landed s) := by
  rw [takeEnds_eq, hf, takeFindSteps_zero, takePresentOrder_of_none hp]

/-- A PRESENT order waited for the completion. -/
theorem takeEnds_orders {s : State} (hne : ∀ j, (landed s).seq.present = some j → j.stage ≠ .taking)
    (hf : (landed s).seq.findWaiting = 0) (hp : (landed s).seq.presentWaiting = true) :
    takeEnds s = orderPresent { landed s with seq := { (landed s).seq with presentWaiting := false } } := by
  rw [takeEnds_eq, finishPresent_of_ne hne, hf, takeFindSteps_zero, takePresentOrder_waiting hp]

/-- R69, R71: what the order makes of a buffer that the TAKE has emptied. -/
theorem orderPresent_after_take {s : State} {c : Cursor} (hr : s.seq.state ≠ .running) (hc : s.seq.cursor = some c)
    (ht : s.hcc.transfer = .idle) (hx : s.xpe.staging = .empty) :
    (orderPresent s).seq = { s.seq with present := some ⟨c, .expanding⟩ } ∧
      (orderPresent s).xpe.job = some ⟨.present, c, 128 * s.hcc.census⟩ ∧ (orderPresent s).hcc = s.hcc := by
  have htak : s.hcc.isTaking = false := by rw [Hcc.isTaking, ht]
  have hend : (endPresent s).hcc = s.hcc := by
    unfold endPresent
    split
    · rfl
    · rw [discardStaging_of_staging_empty (by exact hx) (by exact htak)]
  rw [orderPresent_of_discardable hr hc htak fun _ => hx]
  refine ⟨?_, ?_, hend⟩
  · show { (endPresent s).seq with present := some ⟨c, .expanding⟩ } = _
    rw [endPresent_seq]
  · show some (⟨.present, c, 128 * (endPresent s).hcc.census⟩ : Job) = _
    rw [hend]

/-! ### The find steps that waited for a TAKE -/

/-- R136: while find steps wait, a PRESENT job that ends does not end FINDING. -/
theorem finishPresent_finding {s : State} (h : s.seq.state = .finding) (hw : 0 < s.seq.findWaiting) :
    (∃ x, (finishPresent s).seq = { s.seq with present := x }) ∧ (finishPresent s).xpe = s.xpe ∧
      (finishPresent s).hcc = s.hcc ∧ (finishPresent s).grd = s.grd ∧
      ((∃ j, s.seq.present = some j ∧ j.stage = .taking) → .presentDone ∈ (finishPresent s).plk.notices) := by
  by_cases hj : ∃ j, s.seq.present = some j ∧ j.stage = .taking
  · obtain ⟨j, hj1, hj2⟩ := hj
    have hexit : findExitCheck (raise .p .presentDone { s with seq := { s.seq with present := none } }) =
        raise .p .presentDone { s with seq := { s.seq with present := none } } :=
      if_neg fun k => absurd k.2.2.2.2 (Nat.ne_of_gt hw)
    rw [finishPresent_taking hj1 hj2, if_neg (by rw [h]; decide), hexit]
    exact ⟨⟨none, rfl⟩, rfl, rfl, rfl, fun _ => (mem_raise ..).2 (.inl rfl)⟩
  · rw [finishPresent_of_ne fun j hj1 hj2 => hj ⟨j, hj1, hj2⟩]
    exact ⟨⟨s.seq.present, rfl⟩, rfl, rfl, rfl, fun k => absurd k hj⟩

theorem takeFindSteps_of_ne {s : State} (h : s.seq.state ≠ .finding) : ∀ n, takeFindSteps n s = s
  | 0 => rfl
  | _ + 1 => if_neg fun k => h k.1

/-- R134: the last entry is gone, and HISTORY-END takes the loom into guard. -/
theorem takeFindSteps_historyEnd {s : State} {l : Latched} {n : Nat} (F : s.Finds l n) (hh : s.seq.history = [])
    (hw : 0 < s.seq.findWaiting) (he : s.grd.isEnabled .historyEnd = true) (k : Nat) :
    (takeFindSteps (k + 1) s).HeldBy .historyEnd ∧ (takeFindSteps (k + 1) s).seq.findWaiting = 0 ∧
      (takeFindSteps (k + 1) s).seq.presentWaiting = false := by
  obtain ⟨u, hu⟩ : ∃ u : State, u = endPresent { s with seq := { s.seq with findWaiting := s.seq.findWaiting - 1 } } := ⟨_, rfl⟩
  have hstep : findStep { s with seq := { s.seq with findWaiting := s.seq.findWaiting - 1 } } = trigger .historyEnd u := by
    rw [findStep_of_not_taking (by exact F.taking), hu]
    simp only [hh]
    rfl
  have hq : u.seq.state.guarded := by
    rw [hu, endPresent_seq]
    exact .inr (.inr (.inr (.inr F.state)))
  have hg : u.grd.isEnabled .historyEnd = true := by
    rw [hu, (presented_endPresent _).grd]
    exact he
  have hheld := heldBy_trigger_taken hq hg
  have hseq : (trigger .historyEnd u).seq.findWaiting = 0 ∧ (trigger .historyEnd u).seq.presentWaiting = false := by
    rw [trigger_enters hq hg, guardEntry_seq]
    exact ⟨rfl, rfl⟩
  have hne : (trigger .historyEnd u).seq.state ≠ .finding := by rcases hheld.state with h | h <;> rw [h] <;> decide
  have e : takeFindSteps (k + 1) s = trigger .historyEnd u := by
    rw [takeFindSteps, if_pos ⟨F.state, hw⟩, hstep, takeFindSteps_of_ne hne]
  rw [e]
  exact ⟨hheld, hseq⟩

section
variable {s : State} {p : Plan} {image : List Bool} (hx : s.xpe.staging = .complete p image)
  (hr : s.hcc.holdsReleased = false) (hstate : s.seq.state = .finding) (hwait : 0 < s.seq.findWaiting)
include hx hr hstate hwait

/-- What the find steps that waited begin from. -/
theorem finds_after_take : (finishPresent (landed s)).Finds (if s.hcc.dropHeld then .closed else .pick p image) s.hcc.census ∧
    (∃ x, (finishPresent (landed s)).seq =
      { s.seq with representOwed := s.seq.representOwed.taken, present := x }) ∧
    (finishPresent (landed s)).grd = s.grd ∧
    ((∃ j, s.seq.present = some j ∧ j.stage = .taking) → .presentDone ∈ (finishPresent (landed s)).plk.notices) := by
  obtain ⟨hq, hxpe, hl, htr, hcen, hgrd⟩ := landed_landed hx hr
  obtain ⟨⟨x, hfq⟩, hfx, hfh, hfg, hdone⟩ := finishPresent_finding (s := landed s) (by rw [hq]; exact hstate) (by rw [hq]; exact hwait)
  rw [hq] at hfq hdone
  refine ⟨⟨by rw [hfq]; exact hstate, by rw [Hcc.isTaking, hfh, htr], fun _ => by rw [hfx, hxpe], by rw [hfh, hl],
    by rw [hfh, hcen]⟩, ⟨x, hfq⟩, hfg.trans hgrd, hdone⟩

theorem takeEnds_finding (hp : s.seq.presentWaiting = false) :
    ((∃ j, s.seq.present = some j ∧ j.stage = .taking) → .presentDone ∈ (takeEnds s).plk.notices) ∧
    (∀ (h es : List HistEntry) (e : HistEntry), s.seq.history = h ++ e :: es → es.length + 1 = s.seq.findWaiting →
      (takeEnds s).Finds (if s.hcc.dropHeld then .closed else .pick p image) s.hcc.census ∧
        (∃ o x, (takeEnds s).seq =
          { Seq.unwound { s.seq with representOwed := o, present := x } h e s.seq.findWaiting with findWaiting := 0 }) ∧
        (takeEnds s).xpe.job = some ⟨.present, e.cursor, 128 * s.hcc.census⟩) ∧
    (s.seq.history = [] → s.grd.isEnabled .historyEnd = true →
      (takeEnds s).HeldBy .historyEnd ∧ (takeEnds s).seq.findWaiting = 0) := by
  obtain ⟨F, ⟨x, hq⟩, hg, hdone⟩ := finds_after_take hx hr hstate hwait
  rw [takeEnds_eq, hq]
  obtain ⟨k, hk⟩ := Nat.exists_eq_succ_of_ne_zero (Nat.ne_of_gt hwait)
  refine ⟨fun hj => ?_, fun h es e hh hes => ?_, fun hh he => ?_⟩
  · have hkept := (governed_keptLink .p (finishPresent (landed s)).plk).takePresentOrder
      ((governed_keptLink .p (finishPresent (landed s)).plk).takeFindSteps s.seq.findWaiting (Link.kept.refl _))
    exact hkept.notices _ (hdone hj)
  · have hseq := takeFindSteps_unwinds es F (by rw [hq]; exact hh) (by rw [hq]; exact hes.symm)
    rw [hes, hq] at hseq
    obtain ⟨F', hq', hjob⟩ := hseq
    rw [takePresentOrder_of_none (by rw [hq']; exact hp)]
    exact ⟨F', ⟨_, _, hq'⟩, hjob⟩
  · obtain ⟨hheld, hf, hpw⟩ := takeFindSteps_historyEnd F (by rw [hq]; exact hh) (by rw [hq]; exact hwait)
      (by rw [hg]; exact he) k
    rw [← Nat.succ_eq_add_one, ← hk] at hheld hf hpw
    rw [takePresentOrder_of_none hpw]
    exact ⟨hheld, hf⟩

end

/-- R136: the end of a PRESENT job in FINDING ends FINDING when nothing else of it is left. -/
theorem findExitCheck_eq (s : State) : findExitCheck s =
    if s.seq.state = .finding ∧ s.seq.grant = .none ∧ s.seq.runDown = false ∧ s.seq.present = none ∧
      s.seq.findWaiting = 0 then enterReady s else s := rfl

/-- Settles O45: what stands after the TAKE is `landed_landed`; then the PRESENT job ends (`finishPresent_taking`), the find
steps that waited go on (`takeEnds_finding`), or the PRESENT order that waited is taken (`orderPresent_after_take`). -/
theorem takeCompletionLatchesStaged : Obligations.TakeCompletionLatchesStaged := by
  intro s
  refine ⟨exec_takeCompletion_of_not_takes, fun ht hr hj hf hp => ?_, fun c ht hr hj hf hp hc hs => ?_,
    fun p image ht hr hx => ⟨fun c hp hf hc hs hj => ?_, fun hs hp hf => ⟨fun hj => ?_, fun h es e hh hes => ?_, fun hh he => ?_⟩⟩,
    fun p image ht hr hx hf hp => ?_⟩
  · have hl := landed_released hr
    have e : finishPresent (landed s) = closeReleased s := by rw [hl]; exact finishPresent_of_ne hj
    rw [exec_takeCompletion ht, takeEnds_unawaited (by rw [e]; exact hf) (by rw [e]; exact hp), e]
    rfl
  · have hl := landed_released hr
    have e : takeEnds s = orderPresent { closeReleased s with seq := { s.seq with presentWaiting := false } } := by
      rw [takeEnds_orders (by rw [hl]; exact hj) (by rw [hl]; exact hf) (by rw [hl]; exact hp), hl]
      rfl
    obtain ⟨hq, hjob, hhcc⟩ := orderPresent_after_take
      (s := { closeReleased s with seq := { s.seq with presentWaiting := false } }) hs hc rfl rfl
    rw [← e] at hq hjob hhcc
    exact ⟨takeEnds s, exec_takeCompletion ht, hq, hjob, by rw [hhcc]; rfl, by rw [hhcc]; rfl, by rw [hhcc]; rfl⟩
  · obtain ⟨hq, hxpe, hl, htr, hcen, -⟩ := landed_landed hx hr
    have e := takeEnds_orders (s := s) (by rw [hq]; exact hj) (by rw [hq]; exact hf) (by rw [hq]; exact hp)
    obtain ⟨hq', hjob, hhcc⟩ := orderPresent_after_take
      (s := { landed s with seq := { (landed s).seq with presentWaiting := false } }) (by rw [hq]; exact hs)
      (by rw [hq]; exact hc) htr (by rw [hxpe])
    rw [← e] at hq' hjob hhcc
    refine ⟨takeEnds s, exec_takeCompletion ht, by rw [hq', hq], by rw [hjob, ← hcen], by rw [hhcc]; exact hl,
      by rw [hhcc]; exact htr⟩
  · exact ⟨takeEnds s, exec_takeCompletion ht, (takeEnds_finding hx hr hs hf hp).1 hj⟩
  · obtain ⟨F, ⟨o, x, hq⟩, hjob⟩ := (takeEnds_finding hx hr hs hf hp).2.1 h es e hh hes
    exact ⟨takeEnds s, exec_takeCompletion ht, F.state, by rw [hq], by rw [hq]; rfl, by rw [hq]; rfl, by rw [hq]; rfl,
      by rw [hq]; rfl, by rw [hq]; rfl, hjob, F.latched⟩
  · obtain ⟨hheld, hfw⟩ := (takeEnds_finding hx hr hs hf hp).2.2 hh he
    exact ⟨takeEnds s, exec_takeCompletion ht, hheld.state, hheld.cause, hfw⟩
  · have hlatch := latchStaged_eq hx
    have hland : landed s = takeHeldDrop (latched p image (latchedFst p s) s) := by
      rw [landed, if_neg (by rw [hr]; exact Bool.false_ne_true), hlatch]
    refine ⟨latchedFst p s, _, rfl, rfl, fun hd hj => ?_, fun hd hj => ?_, fun j hj hstage hd hs => ?_,
      fun j hj hstage hd hs => ?_⟩
    · rw [takeHeldDrop_of_not_held (by exact hd)] at hland
      have e : finishPresent (landed s) = latched p image (latchedFst p s) s := by rw [hland]; exact finishPresent_of_ne hj
      rw [exec_takeCompletion ht, takeEnds_unawaited (by rw [e]; exact hf) (by rw [e]; exact hp), e]
      rfl
    · rw [takeHeldDrop_latched p image _ hd] at hland
      have e : finishPresent (landed s) = landed s := finishPresent_of_ne (by rw [hland]; exact hj)
      rw [exec_takeCompletion ht, takeEnds_unawaited (by rw [e, hland]; exact hf) (by rw [e, hland]; exact hp), e, hland]
      rfl
    · rw [takeHeldDrop_of_not_held (by exact hd)] at hland
      have e := finishPresent_taking (s := landed s) (by rw [hland]; exact hj) hstage
      rw [if_pos (by rw [hland]; exact hs), hland] at e
      rw [exec_takeCompletion ht, takeEnds_unawaited (by rw [hland, e]; exact hf) (by rw [hland, e]; exact hp), hland, e]
      rfl
    · rw [takeHeldDrop_of_not_held (by exact hd)] at hland
      have e := finishPresent_taking (s := landed s) (by rw [hland]; exact hj) hstage
      rw [if_neg (by rw [hland]; exact hs), hland, findExitCheck_eq] at e
      refine ⟨_, rfl, fun h1 h2 h3 => ?_, fun hn => ?_⟩
      · rw [if_pos ⟨h1, h2, h3, rfl, hf⟩] at e
        rw [exec_takeCompletion ht, takeEnds_unawaited (by rw [hland, e]; exact hf) (by rw [hland, e]; exact hp), hland, e]
        rfl
      · rw [if_neg fun k => hn ⟨k.1, k.2.1, k.2.2.1⟩] at e
        rw [exec_takeCompletion ht, takeEnds_unawaited (by rw [hland, e]; exact hf) (by rw [hland, e]; exact hp), hland, e]
        rfl

end Sys2Proof.Machine
end

section
/-! PROOFS. The bus tests and the status refresh of the hook chain (R100, R106, R112, R115). -/

namespace Sys2Proof.Machine

/-! ### What an exit from guard leaves at the hook chain -/

/-- R102, R106: a transfer over no modules compares nothing and finds nothing faulty. -/
theorem transferResults_of_no_census {s : State} (n : Half) (h : s.hcc.census = 0) : ∃ x : Hcc,
    transferResults n [] s = { s with hcc := x, grd := { s.grd with moduleLevel := false } } ∧
      x.transfer = .shifted n ∧ x.faultLevel = false ∧ x.census = 0 := by
  have hb : s.mismatched [] = [] := by simp [State.mismatched, h]
  have hs : s.hcc.budgetSpent [] = false := by simp [Hcc.budgetSpent]
  have hc : compareEcho n [] s = { s with hcc := (compareEcho n [] s).hcc } := by
    rw [compareEcho, hb]
    rfl
  have hn : (compareEcho n [] s).hcc.census = 0 := by
    rw [compareEcho, hb]
    exact h
  have hf : (updateStatuses [] (compareEcho n [] s)).hcc.faultLevel = false := by
    simp [updateStatuses, Hcc.faulty, hn]
  have hn' : (updateStatuses [] (compareEcho n [] s)).hcc.census = 0 := by
    unfold updateStatuses
    exact hn
  refine ⟨{ (updateStatuses [] (compareEcho n [] s)).hcc with transfer := .shifted n }, ?_, rfl, hf, hn'⟩
  have hu : ∀ u : State, u = { s with hcc := u.hcc } → updateStatuses [] u = { s with hcc := (updateStatuses [] u).hcc } := by
    intro u hu
    unfold updateStatuses
    conv => lhs; rw [hu]
  have hu' := hu _ hc
  have e : transferResults n [] s = reportLevel { updateStatuses [] (compareEcho n [] s) with
      hcc := { (updateStatuses [] (compareEcho n [] s)).hcc with transfer := .shifted n } } := by
    simp only [transferResults, hb, hs, triggerWhen, List.map_nil, hf]
    rfl
  rw [e]
  generalize updateStatuses [] (compareEcho n [] s) = v at hf hu'
  rw [reportLevel, hu', ← hf]

theorem discardStaging_only (s : State) : discardStaging s = { s with
    fst := (discardStaging s).fst, xpe := (discardStaging s).xpe, wft := (discardStaging s).wft
    hcc := (discardStaging s).hcc } := by
  unfold discardStaging
  split
  · rfl
  · split <;> rfl

/-- What a motion command has set at SEQ (R120 to R124). -/
def Seq.motion (q : Seq) : Grant × Bool := (q.grant, q.runDown)

/-- A property that the orders of a PRESENT job keep, outside RUNNING, and an exit from guard with them. -/
structure Calm (P : State → Prop) : Prop where
  raise : ∀ {s : State} (l : LinkId) (n : NoticeKind), P s → P (raise l n s)
  /-- The window stays closed or open, with what has been reported for it; the motion command stays. -/
  units : ∀ {s : State} (f : Fst) (x : Xpe) (q : Seq) (w : Wft), P s → w.window = s.wft.window → w.report = s.wft.report →
    q.motion = s.seq.motion → P { s with fst := f, xpe := x, seq := q, wft := w }
  grd : ∀ {s : State} (g : Grd), P s → g.moduleLevel = s.grd.moduleLevel → P { s with grd := g }
  bus : ∀ {s : State} (x : Transfer) (k : Option Strobe), P s → x ≠ .refreshing →
    P { s with hcc := { s.hcc with transfer := x, lastStrobe := k } }
  endRefresh : ∀ {s : State}, P s → P (endRefresh s)
  results : ∀ {s : State} (n : Half), P s → s.hcc.census = 0 → P (transferResults n [] s)

namespace Calm
variable {P : State → Prop} (h : Calm P) {s : State}
include h

theorem seq (q : Seq) (hs : P s) (hm : q.motion = s.seq.motion) : P { s with seq := q } :=
  h.units s.fst s.xpe q s.wft hs rfl rfl hm

theorem claim (r : HoldReason) (i : Fin 8) (hs : P s) : P (claim r i s) :=
  h.units (Machine.claim r i s).fst s.xpe s.seq s.wft hs rfl rfl rfl

theorem departed (q : SeqState) (hs : P s) : P (departed q s) := by
  unfold Machine.departed
  split
  · exact h.raise _ _ hs
  · exact hs

theorem discardStaging (hs : P s) : P (discardStaging s) := by
  obtain ⟨g, hg⟩ := discardStaging_wft s
  have hu := h.units (Machine.discardStaging s).fst (Machine.discardStaging s).xpe s.seq (Machine.discardStaging s).wft hs
    (by rw [hg]) (by rw [hg]) rfl
  have e := discardStaging_only s
  rcases discardStaging_hcc s with k | k <;> rw [k] at e <;> rw [e]
  · exact hu
  · exact h.bus .idle s.hcc.lastStrobe hu nofun

theorem endPresent (hs : P s) : P (endPresent s) := by
  unfold Machine.endPresent
  split
  · exact hs
  · exact h.discardStaging (h.seq _ hs rfl)

theorem startJob (k : JobKind) (hr : s.seq.state ≠ .running) (hs : P s) : P (startJob k s) := by
  cases hc : s.seq.cursor with
  | none => simp only [Machine.startJob, hc]; exact hs
  | some c =>
    obtain ⟨g, hg⟩ := choose_wft s.wft (s.cardOf c).weft
    rw [startJob_eq hc (.inl hr)]
    exact h.claim _ _ (h.units s.fst _ s.seq _ hs (by rw [hg]) (by rw [hg]) rfl)

theorem reportTransfer (n : Half) (hs : P s) : P (reportTransfer n s) := by
  unfold Machine.reportTransfer
  split
  · split
    next j _ =>
      split
      · exact h.bus _ _ (h.seq { s.seq with present := some { j with stage := .taking } } hs rfl) nofun
      · exact hs
    · exact hs
  · exact hs

theorem startTransfer (hs : P s) : P (startTransfer s) := by
  unfold Machine.startTransfer
  split
  · exact hs
  next p _ _ _ =>
    have ht : P { Machine.endRefresh s with hcc := { (Machine.endRefresh s).hcc with transfer := .shifting p.serial } } :=
      h.bus (.shifting p.serial) (Machine.endRefresh s).hcc.lastStrobe (h.endRefresh hs) nofun
    simp only
    split
    next hn => exact h.reportTransfer _ (h.results _ ht hn)
    · exact ht
  · exact hs
  · exact hs

theorem presentCursor (hr : s.seq.state ≠ .running) (hs : P s) : P (presentCursor s) := by
  unfold Machine.presentCursor beginPresent
  split
  · exact h.startTransfer (h.seq _ hs rfl)
  · exact h.seq _ (h.units s.fst _ s.seq s.wft hs rfl rfl rfl) rfl
  · exact h.startJob _ (by rw [discardStaging_seq]; exact hr) (h.seq _ (h.discardStaging hs) rfl)

theorem orderPresent (hr : s.seq.state ≠ .running) (hs : P s) : P (orderPresent s) := by
  unfold Machine.orderPresent
  split
  · exact h.seq _ hs rfl
  · exact h.presentCursor (by rw [endPresent_seq]; exact hr) (h.endPresent hs)

theorem enterReady (hs : P s) : P (enterReady s) :=
  h.raise _ _ (h.raise _ _ (h.units s.fst s.xpe _ _ hs rfl rfl rfl))

theorem enterPresenting (hs : P s) : P (enterPresenting s) := h.orderPresent (by simp) (h.seq _ hs rfl)

theorem guardExit (hs : P s) : P (guardExit s) := by
  unfold Machine.guardExit
  simp only
  have ht := h.raise .d .guardLeft (h.raise .p .guardLeft
    (h.seq { s.seq with coasting := false } (h.grd { s.grd with causes := [], stopRequest := false } hs rfl) rfl))
  split
  · exact h.enterReady ht
  · exact h.enterPresenting ht

theorem presentOwed (hs : P s) : P (presentOwed s) := by
  unfold Machine.presentOwed represent
  split
  · exact h.departed _ (h.enterPresenting hs)
  · exact hs

theorem exitCheck (hs : P s) : P (exitCheck s) := by
  unfold Machine.exitCheck
  split
  · exact h.presentOwed (h.guardExit hs)
  · exact hs

end Calm

/-- An exit from guard leaves the answer of the P-link when no refresh is in progress. -/
theorem calm_response (r : Option Response) :
    Calm fun s => s.hcc.transfer ≠ .refreshing ∧ s.plk.response = r where
  raise := fun l n hs => ⟨by rw [raise_hcc]; exact hs.1, by cases l <;> exact hs.2⟩
  units := fun _ _ _ _ hs _ _ _ => hs
  grd := fun _ hs _ => hs
  bus := fun _ _ hs hx => ⟨hx, hs.2⟩
  endRefresh := fun hs => by rw [endRefresh, if_neg hs.1]; exact hs
  results := fun n hs hn => by
    obtain ⟨x, e, ht, -⟩ := transferResults_of_no_census n hn
    rw [e]
    exact ⟨by rw [ht]; nofun, hs.2⟩

/-- With no modules on the chain, no level rises. -/
theorem calm_dark : Calm fun s => s.hcc.census = 0 ∧ s.hcc.faultLevel = false ∧ s.grd.moduleLevel = false where
  raise := fun l n hs => by rw [raise_hcc, raise_grd]; exact hs
  units := fun _ _ _ _ hs _ _ _ => hs
  grd := fun _ hs hm => ⟨hs.1, hs.2.1, hm.trans hs.2.2⟩
  bus := fun _ _ hs _ => hs
  endRefresh := fun {s} hs => by
    unfold endRefresh
    split
    · exact hs
    · exact hs
  results := fun n _ hn => by
    obtain ⟨x, e, -, hf, hx⟩ := transferResults_of_no_census n hn
    rw [e]
    exact ⟨hx, hf, rfl⟩

/-- The orders of a PRESENT job leave the window and its report. -/
theorem calm_window (w : Option Half) (r : Option Report) : Calm fun s => s.wft.window = w ∧ s.wft.report = r where
  raise := fun l n hs => by rw [raise_wft]; exact hs
  units := fun _ _ _ _ hs hw hr _ => ⟨hw.trans hs.1, hr.trans hs.2⟩
  grd := fun _ hs _ => hs
  bus := fun _ _ hs _ => hs
  endRefresh := fun hs => by rw [endRefresh_wft]; exact hs
  results := fun n hs hn => by
    obtain ⟨x, e, -⟩ := transferResults_of_no_census n hn
    rw [e]
    exact hs

/-- The orders of a PRESENT job leave the motion command. -/
theorem calm_motion (m : Grant × Bool) : Calm fun s => s.seq.motion = m where
  raise := fun l n hs => by rw [raise_seq]; exact hs
  units := fun _ _ _ _ hs _ _ hm => hm.trans hs
  grd := fun _ hs _ => hs
  bus := fun _ _ hs _ => hs
  endRefresh := fun hs => by rw [endRefresh_seq]; exact hs
  results := fun n hs hn => by
    obtain ⟨x, e, -⟩ := transferResults_of_no_census n hn
    rw [e]
    exact hs

/-! ### The end of a status refresh (R115) -/

/-- HCC after a refresh, before the named counters are cleared. -/
def Hcc.refreshed (st : List EchoStatus) (h : Hcc) : Hcc :=
  { h with
    status := h.recordStatuses st, faultLevel := { h with status := h.recordStatuses st }.faulty
    transfer := .idle, refreshClear := [] }

/-- The state after a refresh, with its level reported and its answer given, before GRD acts. -/
def State.refreshed (st : List EchoStatus) (s : State) : State :=
  { s with
    hcc := { s.hcc.refreshed st with echoErrors := clearErrors s.hcc.refreshClear s.hcc.echoErrors }
    grd := { s.grd with moduleLevel := (s.hcc.refreshed st).faultLevel } : State }.answeredLate .p .ok
      (modulesRecord (s.hcc.refreshed st) ++ [0])

/-- R103 step 6 after the answer: the level is reported, the link keeps the answer. -/
theorem reportLevel_answer (x : Hcc) (e : Vector Nat 96) (p : List Byte) (s : State) :
    reportLevel { answer .p ⟨.ok, p⟩ { s with hcc := x } with hcc := { x with echoErrors := e } } =
      ({ s with hcc := { x with echoErrors := e }, grd := { s.grd with moduleLevel := x.faultLevel } } : State).answeredLate
        .p .ok p := rfl

theorem refreshEnds_eq (st : List EchoStatus) (s : State) : refreshEnds st s =
    if (s.hcc.refreshed st).faultLevel = true then trigger .moduleFault (s.refreshed st)
    else if s.hcc.faultLevel = true then exitCheck (s.refreshed st) else s.refreshed st := by
  have hh : ({ (updateStatuses st s).hcc with transfer := .idle, refreshClear := [] } : Hcc) = s.hcc.refreshed st := by
    unfold updateStatuses Hcc.refreshed
    rfl
  have hu : ({ updateStatuses st s with hcc := s.hcc.refreshed st } : State) = { s with hcc := s.hcc.refreshed st } := by
    unfold updateStatuses
    rfl
  unfold refreshEnds State.refreshed
  simp only [hh, hu, answerModules, answer_hcc, reportLevel_answer, triggerWhen]
  have hb : b8 0 = [0] := rfl
  rw [hb]
  cases (s.hcc.refreshed st).faultLevel <;> cases s.hcc.faultLevel <;> rfl

theorem get_recordStatuses (h : Hcc) (st : List EchoStatus) (m : Fin 96) : (h.recordStatuses st).get m =
    if m.1 < h.census then statusOf (st[m.1]?.getD .other) else h.status.get m := by
  rw [Hcc.recordStatuses, get_ofFn, List.getD_eq_getElem?_getD]

theorem Hcc.faulty_iff (h : Hcc) : h.faulty = true ↔ ∃ m : Fin 96, m.1 < h.census ∧ h.status.get m ≠ .good := by
  simp only [Hcc.faulty, List.any_eq_true, decide_eq_true_iff, List.mem_take_iff_getElem]
  constructor
  · rintro ⟨x, ⟨k, hk, rfl⟩, hx⟩
    have hk' : k < 96 := by simpa using (Nat.lt_min.1 hk).2
    exact ⟨⟨k, hk'⟩, (Nat.lt_min.1 hk).1, hx⟩
  · rintro ⟨m, hm, hx⟩
    exact ⟨_, ⟨m.1, Nat.lt_min.2 ⟨hm, by simp⟩, rfl⟩, hx⟩

/-- `b` knows of its modules what `a` knows, and refreshes no more than `a`. -/
structure Hcc.SameModules (a b : Hcc) : Prop where
  transfer : b.transfer ≠ .refreshing
  status : b.status = a.status
  errors : b.echoErrors = a.echoErrors
  level : b.faultLevel = a.faultLevel
  census : b.census = a.census

/-- A trigger, whatever it does to the hooks, leaves what HCC knows of its modules. -/
theorem sameModules_trigger (x : Trigger) {s : State} (ht : s.hcc.transfer ≠ .refreshing) :
    s.hcc.SameModules (trigger x s).hcc := by
  have entry : ∀ u : State, u.hcc.transfer ≠ .refreshing → u.hcc.SameModules (guardEntry x u).hcc := by
    intro u hu
    cases h : u.hcc.isTaking
    · cases hs : u.grd.shed
      · obtain ⟨_, _, e, he⟩ := guardEntry_hold (t := x) hs h
        rw [e]; exact ⟨nofun, rfl, (he hu).1, rfl, rfl⟩
      · obtain ⟨_, _, e, he⟩ := guardEntry_close (t := x) hs h
        rw [e]; exact ⟨nofun, rfl, (he hu).1, rfl, rfl⟩
    · rw [(guardEntry_taking (t := x) h).2]
      split <;> exact ⟨hu, rfl, rfl, rfl, rfl⟩
  rcases trigger_cases x s with ⟨_, e⟩ | ⟨_, _, e⟩ | ⟨_, _, e⟩ | ⟨_, _, e⟩ <;> rw [e]
  · exact ⟨ht, rfl, rfl, rfl, rfl⟩
  · exact ⟨ht, rfl, rfl, rfl, rfl⟩
  · exact ⟨ht, rfl, rfl, rfl, rfl⟩
  · exact entry (countTrigger x s) ht

section
variable {s : State} (h : s.hcc.transfer = .refreshing)
include h

theorem not_takes_of_refreshing : ¬s.takes := by
  rintro ⟨n, hn⟩
  rw [h] at hn
  cases hn

theorem sameExit_refreshed (st : List EchoStatus) : s.SameExit (s.refreshed st) where
  cursor := rfl
  history := rfl
  woven := rfl
  owed := rfl
  latched := rfl
  released := rfl
  dropHeld := rfl
  census := rfl
  taking := iff_of_false nofun (not_takes_of_refreshing h)
  transfer := fun k => absurd k (not_takes_of_refreshing h)
  staged := rfl
  chu := rfl
  entry := rfl

end

theorem refreshed_of_level {s : State} {st : List EchoStatus} {b : Bool} (h : (s.hcc.refreshed st).faultLevel = b) :
    s.refreshed st = ({ s with
      hcc := { s.hcc.refreshed st with echoErrors := clearErrors s.hcc.refreshClear s.hcc.echoErrors }
      grd := { s.grd with moduleLevel := b } : State }).answeredLate .p .ok (modulesRecord (s.hcc.refreshed st) ++ [0]) := by
  subst h
  rfl

/-- Settles O41: `refreshEnds_eq` says what a refresh leaves before GRD acts; the exit check and the trigger follow it. -/
theorem refreshCompletionRecordsStatuses : Obligations.RefreshCompletionRecordsStatuses := by
  intro s st
  refine ⟨fun h => if_neg h, fun h => ⟨s.hcc.recordStatuses st, clearErrors s.hcc.refreshClear s.hcc.echoErrors,
    s.hcc.refreshed st, rfl, fun m => ?_, Hcc.faulty_iff _, fun m => get_ofFn .., ?_⟩⟩
  · rw [get_recordStatuses]
    rcases st[m.1]? with _ | (_ | _ | _ | _ | _) <;> rfl
  have hx : exec (.refreshCompletion st) s = .next (refreshEnds st s) := if_pos h
  rw [hx, refreshEnds_eq]
  have hnot := Bool.eq_false_iff (b := (s.hcc.refreshed st).faultLevel)
  refine ⟨fun hf hl => ?_, fun hf hl hg => ⟨s.refreshed st, refreshed_of_level hf, fun hm => ?_, fun hr hc hv => ?_⟩,
    fun hf => ?_, fun hf => ⟨_, rfl, ?_⟩⟩
  · have hquiet : (if s.hcc.faultLevel = true then exitCheck (s.refreshed st) else s.refreshed st) = s.refreshed st := by
      rcases hl with hl | hl
      · rw [hl]; rfl
      · rw [exitCheck_of_ne (by exact hl), ite_self]
    rw [if_neg (hnot.1 hf), hquiet, refreshed_of_level hf]
  · rw [if_neg (hnot.1 hf), if_pos hl, exitCheck, if_neg fun k => hm ((mayExit_iff _).1 k.2)]
  · have hexit : exitCheck (s.refreshed st) = presentOwed (guardExit (s.refreshed st)) :=
      exitCheck_of_mayExit hg ((mayExit_iff _).2 ⟨hr, hc, hv⟩)
    refine ⟨exitCheck (s.refreshed st), by rw [if_neg (hnot.1 hf), if_pos hl], ?_, ?_⟩
    · rw [hexit]
      exact (sameExit_refreshed h st).guardLeft (guardLeft_of_counts rfl rfl)
    · exact ((calm_response _).exitCheck (s := s.refreshed st) ⟨nofun, rfl⟩).2
  · rw [if_pos hf, refreshed_of_level hf]
  · obtain ⟨-, hstatus, herrors, hlevel, -⟩ := sameModules_trigger .moduleFault (s := s.refreshed st) nofun
    rw [if_pos hf, trigger_grd_moduleLevel]
    refine ⟨hstatus, herrors, hlevel.trans hf, hf, fun hg he => ?_⟩
    have held := heldBy_trigger_taken (x := .moduleFault) (s := s.refreshed st) hg he
    exact ⟨held.state, held.cause⟩

/-! ### Bus tests (R100, R112) -/

theorem counted_of_modules {n k : Nat} (hn : n = 136 * k) (h1 : 1 ≤ k) (h2 : k ≤ 96) : counted (some n) = some k := by
  have hd : n / 136 = k := by omega
  have hc : n % 136 = 0 ∧ 1 ≤ n / 136 ∧ n / 136 ≤ 96 := by omega
  exact (if_pos hc).trans (congrArg some hd)

theorem counted_of_no_modules {m : Option Nat} (h : ∀ n, m = some n → ¬∃ j, n = 136 * j ∧ 1 ≤ j ∧ j ≤ 96) :
    counted m = none := by
  cases m with
  | none => rfl
  | some n =>
    refine if_neg fun hc => h n rfl ⟨n / 136, ?_, hc.2.1, hc.2.2⟩
    have h0 : n % 136 = 0 := hc.1
    omega

/-- R100: in UNLOADED the result of a census ends with its answer. -/
theorem censusEnds_eq {s : State} (h : s.seq.state = .unloaded) (c : Option Nat) : censusEnds c s =
    (({ s with
      fst := (releaseLatched s.hcc.latched s).fst
      hcc := { s.hcc with
        census := c.getD 0, latched := .unknown, status := Vector.replicate 96 .none, faultLevel := false, busTest := .none }
      grd := { s.grd with moduleLevel := false } }).answeredLate .p .ok
        [if c.isSome then 0 else 1, BitVec.ofNat 8 (c.getD 0)]) := by
  unfold censusEnds releaseLatched
  rw [exitCheck_of_ne]
  · cases s.hcc.latched.plan <;> cases c <;> rfl
  · cases s.hcc.latched.plan <;> (refine fun k => ?_; cases h.symm.trans k)

theorem passes_iff (r : StageReturn) : StageReturn.passes r = true ↔ r = ⟨.intact, .intact, .intact, .intact⟩ := by
  obtain ⟨a, b, c, d⟩ := r
  simp [StageReturn.passes, and_assoc]

/-- R112: the stage `k` of the chain comes back unchanged. -/
theorem stage_fails_iff (stages : List StageReturn) (k : Nat) :
    (!((stages[k]?.map StageReturn.passes).getD false)) = true ↔ stages[k]? ≠ some ⟨.intact, .intact, .intact, .intact⟩ := by
  cases stages[k]? with
  | none => simp
  | some r =>
    rw [Option.map_some, Option.getD_some, Bool.not_eq_true', ← Bool.not_eq_true, passes_iff, Ne, Option.some_inj]

theorem hookResult_passed {n : Nat} {stages : List StageReturn}
    (h : ∀ k, k < n → stages[k]? = some ⟨.intact, .intact, .intact, .intact⟩) : hookResult n stages = .passed := by
  have hf : ((List.range n).find? fun k => !((stages[k]?.map StageReturn.passes).getD false)) = none :=
    List.find?_eq_none.2 fun k hk => by
      rw [stage_fails_iff]
      exact Classical.not_not.2 (h k (List.mem_range.1 hk))
  rw [hookResult, hf]

theorem hookResult_failed {n k : Nat} {stages : List StageReturn} (hk : k < n)
    (h : stages[k]? ≠ some ⟨.intact, .intact, .intact, .intact⟩)
    (hb : ∀ j, j < k → stages[j]? = some ⟨.intact, .intact, .intact, .intact⟩) : hookResult n stages = .failed k := by
  have hf : ((List.range n).find? fun k => !((stages[k]?.map StageReturn.passes).getD false)) = some k := by
    rw [List.find?_range_eq_some]
    refine ⟨(stage_fails_iff ..).2 h, List.mem_range.2 hk, fun j hj => ?_⟩
    rw [Bool.not_eq_true', ← Bool.not_eq_true, stage_fails_iff]
    exact Classical.not_not.2 (hb j hj)
  rw [hookResult, hf]

/-! ### The begin of a refresh -/

theorem refreshable_iff (s : State) : s.refreshable = true ↔
    (s.openToSettings ∨ s.seq.state = .guard ∨ s.seq.state = .halted) ∧ s.hcc.transfer = .idle := by
  simp [State.refreshable, openToSettings_iff, or_assoc]

/-- R115, R106: a refresh over no modules leaves no level, and the exit from guard that it may bring leaves its answer. -/
theorem refreshEnds_of_no_census {s : State} {b : Link} {code : Byte} (hn : s.hcc.census = 0) (hk : s.plk = b.take code)
    (hb : b.suppressed = false) : (refreshEnds [] s).hcc.faultLevel = false ∧ (refreshEnds [] s).grd.moduleLevel = false ∧
      ∃ payload, (refreshEnds [] s).plk.response = some ⟨.ok, payload⟩ := by
  have hf : (s.hcc.refreshed []).faultLevel = false := by
    rw [← Bool.not_eq_true]
    intro h
    obtain ⟨m, hm, -⟩ := (Hcc.faulty_iff _).1 h
    exact absurd (hn ▸ hm : m.1 < 0) (Nat.not_lt_zero _)
  have hr : (s.refreshed []).plk.response = some ⟨.ok, modulesRecord (s.hcc.refreshed []) ++ [0]⟩ :=
    response_of_kept _ hb (by rw [hk]; exact .refl _)
  have dark := calm_dark.exitCheck (s := s.refreshed []) ⟨hn, hf, hf⟩
  have answered := (calm_response _).exitCheck (s := s.refreshed []) ⟨nofun, hr⟩
  rw [refreshEnds_eq, hf, if_neg Bool.false_ne_true]
  split
  · exact ⟨dark.2.1, dark.2.2, _, answered.2⟩
  · exact ⟨hf, hf, _, hr⟩

/-- Settles O39: each owner by its checks; a refresh over no modules by `refreshEnds_of_no_census`; the ends of a census and
of a hook test by what `counted` and `hookResult` give. -/
theorem busTestsBeginAndEnd : Obligations.BusTestsBeginAndEnd := by
  refine ⟨fun s ho => ?_, fun s => ?_⟩
  · have ho' : (s.link .p).isOpen = true := ho
    refine ⟨fun hu ht => ⟨exec_waits rfl ho' rfl (if_pos ⟨hu, ht⟩), fun h1 h2 => ?_, fun hn => ?_⟩,
      fun hn => ⟨exec_refuses rfl ho' rfl (if_neg hn), ?_⟩, fun clear => ⟨fun hm => ?_, fun hm hn => ?_, fun hm hq ht => ?_⟩⟩
    · rw [exec_hookTest ho, if_pos ⟨hu, ht⟩, if_pos ⟨h1, h2⟩]
    · rw [exec_hookTest ho, if_pos ⟨hu, ht⟩, if_neg hn]
    · rw [exec_hookTest ho, if_neg hn]
    · have hc : ¬modulesOk clear = true := by
        obtain ⟨m, hm, h96⟩ := hm
        rw [modulesOk_iff]
        exact fun h => absurd (h m hm) (Nat.not_lt.2 h96)
      exact exec_refuses rfl ho' rfl (if_neg hc)
    · have hc := (modulesOk_iff clear).2 hm
      exact exec_refuses rfl ho' rfl ((if_pos hc).trans (if_neg fun k => hn ((refreshable_iff _).1 k)))
    · have hc := (modulesOk_iff clear).2 hm
      have hw : beginRefresh clear (s.awaited .p .readModules) = (startRefresh clear (s.awaited .p .readModules), .later) :=
        (if_pos hc).trans (if_pos ((refreshable_iff _).2 ⟨hq, ht⟩))
      have he := exec_waits (c := .statusRefresh clear) rfl ho' rfl hw
      rw [he]
      refine ⟨fun hne => congrArg _ ((if_neg hne).trans rfl), fun h0 => ⟨_, rfl, ?_⟩⟩
      rw [show startRefresh clear (s.awaited .p .readModules) = refreshEnds [] _ from if_pos h0]
      exact refreshEnds_of_no_census (b := s.plk) h0 rfl ((isOpen_iff _).1 ho).2.2
  · refine ⟨fun hb hu => ⟨(releaseLatched s.hcc.latched s).fst, fun hp => ?_, fun p hp => ?_, fun m k result hm => ?_⟩,
      fun hb stages => ⟨fun hk => ?_, fun k hk hs hj => ?_⟩, fun hb m => if_neg hb, fun hb st => if_neg hb⟩
    · rw [releaseLatched, hp]
    · rw [releaseLatched, hp]
      rfl
    · have he : exec (.censusResult m) s = .next (censusEnds (counted m) s) := if_pos hb
      rw [he, censusEnds_eq hu]
      rcases hm with ⟨⟨n, rfl, hn, h1, h2⟩, rfl⟩ | ⟨hn, rfl, rfl⟩
      · rw [counted_of_modules hn h1 h2]
        rfl
      · rw [counted_of_no_modules hn]
        rfl
    · have he : exec (.hookTestEnd stages) s = .next (hookTestEnds (hookResult s.hcc.census stages) s) := if_pos hb
      rw [he, hookResult_passed hk]
      rfl
    · have he : exec (.hookTestEnd stages) s = .next (hookTestEnds (hookResult s.hcc.census stages) s) := if_pos hb
      rw [he, hookResult_failed hk hs hj]
      rfl

end Sys2Proof.Machine
end

section
/-! PROOFS. The completion of a transfer (R103 to R106, R114). -/

namespace Sys2Proof.Machine

/-! ### Triggers where guard is held, and outside it -/

/-- R161, R166: taken in guard, a trigger moves GRD's record and the notices alone. -/
theorem trigger_in_guard_only {x : Trigger} {s : State} (h : s.seq.state = .guard ∨ s.seq.state = .halted) :
    ∃ (totals : Vector Nat 13) (causes : List Trigger) (k : Link), trigger x s =
      { s with grd := { s.grd with totals := totals, causes := causes }, plk := k } := by
  have hu : s.seq.state ≠ .unloaded := by rcases h with h | h <;> rw [h] <;> decide
  cases he : s.grd.isEnabled x
  · exact ⟨_, _, _, trigger_disabled hu he⟩
  · exact ⟨_, _, _, trigger_inGuard h he⟩

theorem triggerWhen_in_guard_only (b : Bool) {x : Trigger} {s : State} (h : s.seq.state = .guard ∨ s.seq.state = .halted) :
    ∃ (totals : Vector Nat 13) (causes : List Trigger) (k : Link), triggerWhen b x s =
      { s with grd := { s.grd with totals := totals, causes := causes }, plk := k } := by
  cases b
  · exact ⟨_, _, _, rfl⟩
  · exact trigger_in_guard_only h

/-- Guard is held for `x`. -/
def State.InGuardFor (x : Trigger) (s : State) : Prop := (s.seq.state = .guard ∨ s.seq.state = .halted) ∧ x ∈ s.grd.causes

theorem inGuardFor_trigger {x : Trigger} {s : State} (h : s.seq.state ≠ .unloaded) (he : s.grd.isEnabled x = true) :
    (trigger x s).InGuardFor x := by
  have joins : ∀ hg : s.seq.state = .guard ∨ s.seq.state = .halted, (trigger x s).InGuardFor x := fun hg => by
    rw [trigger_inGuard hg he]
    exact ⟨hg, (mem_joinCause ..).2 (.inl rfl)⟩
  by_cases hg : s.seq.state.guarded
  · exact ⟨(heldBy_trigger_taken hg he).state, (heldBy_trigger_taken hg he).cause⟩
  · cases hq : s.seq.state with
    | guard => exact joins (.inl hq)
    | halted => exact joins (.inr hq)
    | unloaded => exact absurd hq h
    | presenting | ready | running | stopping | finding => rw [hq] at hg; exact absurd (by decide) hg

theorem inGuardFor_triggerWhen_keeps (b : Bool) {x y : Trigger} {s : State} (h : s.InGuardFor x) :
    (triggerWhen b y s).InGuardFor x := by
  cases b
  · exact h
  · obtain ⟨hq, hc⟩ := trigger_in_guard_keeps (x := y) h.1
    exact ⟨by rw [triggerWhen, if_pos rfl, hq]; exact h.1, hc x h.2⟩

theorem trigger_loaded {x : Trigger} {s : State} (h : s.seq.state ≠ .unloaded) : (trigger x s).seq.state ≠ .unloaded := by
  cases he : s.grd.isEnabled x
  · rw [trigger_disabled h he]
    exact h
  · rcases (inGuardFor_trigger h he).1 with k | k <;> rw [k] <;> nofun

theorem triggerWhen_loaded (b : Bool) {x : Trigger} {s : State} (h : s.seq.state ≠ .unloaded) :
    (triggerWhen b x s).seq.state ≠ .unloaded := by
  cases b
  · exact h
  · exact trigger_loaded h

theorem Hcc.SameModules.trans {a b c : Hcc} (h : a.SameModules b) (k : b.SameModules c) : a.SameModules c :=
  ⟨k.transfer, k.status.trans h.status, k.errors.trans h.errors, k.level.trans h.level, k.census.trans h.census⟩

theorem sameModules_triggerWhen (b : Bool) (x : Trigger) {s : State} (ht : s.hcc.transfer ≠ .refreshing) :
    s.hcc.SameModules (triggerWhen b x s).hcc := by
  cases b
  · exact ⟨ht, rfl, rfl, rfl, rfl⟩
  · exact sameModules_trigger x ht

/-! ### The comparison (R103 steps 1 to 5, R104) -/

theorem mem_mismatched_iff (s : State) (echo : List ModuleEcho) (m : Nat) : m ∈ s.mismatched echo ↔
    s.hcc.compares = true ∧ m < s.hcc.census ∧ ∃ j, j < 128 ∧ 128 * m + j ∉ s.hmp.dead ∧
      (echo[m]?.map fun x => x.lifts.getD j false).getD false ≠ s.hcc.latched.expects (128 * m + j) := by
  have hlift : ∀ j, j < 128 → echoedLift echo (128 * m + j) = (echo[m]?.map fun x => x.lifts.getD j false).getD false := by
    intro j hj
    have hd : (128 * m + j) / 128 = m := by omega
    have hr : (128 * m + j) % 128 = j := by omega
    simp only [echoedLift, Config.hooksPerModule, hd, hr]
    cases echo[m]? <;> rfl
  have hm : s.mismatches echo m = true ↔ ∃ j, j < 128 ∧ 128 * m + j ∉ s.hmp.dead ∧
      (echo[m]?.map fun x => x.lifts.getD j false).getD false ≠ s.hcc.latched.expects (128 * m + j) := by
    simp only [State.mismatches, Config.hooksPerModule, List.any_eq_true, List.mem_range, Bool.and_eq_true, bne_iff_ne]
    exact exists_congr fun j => and_congr_right fun hj => by
      rw [hlift j hj]
      exact and_congr decide_eq_true_iff .rfl
  unfold State.mismatched
  split
  next hc => simp only [List.mem_filter, List.mem_range, hm, hc, true_and]
  next hc => simp [hc]

theorem pairwise_mismatched (s : State) (echo : List ModuleEcho) : (s.mismatched echo).Pairwise (· < ·) := by
  unfold State.mismatched
  split
  · exact List.pairwise_lt_range.filter _
  · exact .nil

/-- HCC after the steps 1 to 5 of R103. -/
def Hcc.measured (n : Half) (bad : List Nat) (st : List EchoStatus) (h : Hcc) : Hcc :=
  { h with
    lastCompare := some ⟨n, h.compares, bad⟩, echoErrors := raiseErrors bad h.echoErrors, budget := h.budgetAfter bad
    status := h.recordStatuses st, faultLevel := { h with status := h.recordStatuses st }.faulty, transfer := .shifted n }

/-- The staging after step 2 of R103. -/
def Staging.measured (n : Half) (bad : List Nat) (x : Staging) : Staging := if bad.isEmpty then x else x.flagMismatch n

/-- The P-link after step 2 of R103. -/
def Link.measured (bad : List Nat) (k : Link) : Link := if bad.isEmpty then k else Link.raise .echoMismatch k

/-- The state after the steps 1 to 5 of R103, before GRD acts. -/
def State.measured (n : Half) (echo : List ModuleEcho) (s : State) : State :=
  { s with
    hcc := s.hcc.measured n (s.mismatched echo) (echo.map (·.status))
    xpe := { s.xpe with staging := Staging.measured n (s.mismatched echo) s.xpe.staging }
    plk := Link.measured (s.mismatched echo) s.plk }

theorem transferResults_eq (n : Half) (echo : List ModuleEcho) (s : State) : transferResults n echo s =
    triggerWhen (s.measured n echo).hcc.faultLevel .moduleFault (reportLevel
      (triggerWhen (s.hcc.budgetSpent (s.mismatched echo)) .echoBudget (s.measured n echo))) := by
  have h : ({ updateStatuses (echo.map (·.status)) (compareEcho n echo s) with
      hcc := { (updateStatuses (echo.map (·.status)) (compareEcho n echo s)).hcc with transfer := .shifted n } } : State) =
      s.measured n echo := by
    unfold compareEcho State.measured Hcc.measured Staging.measured Link.measured updateStatuses
    dsimp only
    generalize s.mismatched echo = bad
    cases bad <;> rfl
  rw [transferResults, ← h]

/-- R103: where guard is held, the completion moves HCC, GRD's record and the notices alone. -/
theorem transferResults_in_guard (n : Half) (echo : List ModuleEcho) {s : State}
    (h : s.seq.state = .guard ∨ s.seq.state = .halted) :
    ∃ (totals : Vector Nat 13) (causes : List Trigger) (k : Link), transferResults n echo s = { s.measured n echo with
      grd := { s.grd with totals := totals, causes := causes, moduleLevel := (s.measured n echo).hcc.faultLevel }
      plk := k } := by
  obtain ⟨t1, c1, k1, e1⟩ := triggerWhen_in_guard_only (x := .echoBudget) (s := s.measured n echo)
    (s.hcc.budgetSpent (s.mismatched echo)) h
  obtain ⟨t2, c2, k2, e2⟩ := triggerWhen_in_guard_only (x := .moduleFault)
    (s := reportLevel { s.measured n echo with grd := { s.grd with totals := t1, causes := c1 }, plk := k1 })
    (s.measured n echo).hcc.faultLevel h
  refine ⟨t2, c2, k2, ?_⟩
  rw [transferResults_eq, e1]
  exact e2

/-- A report of a transfer changes SEQ's PRESENT job and the bus alone. -/
theorem reportTransfer_only (n : Half) (s : State) : ∃ (p : Option PresentJob) (x : Transfer) (k : Option Strobe),
    reportTransfer n s = { s with
      seq := { s.seq with present := p }, hcc := { s.hcc with transfer := x, lastStrobe := k } } := by
  unfold reportTransfer
  split
  · split
    · split
      · exact ⟨_, _, _, rfl⟩
      · exact ⟨_, _, _, rfl⟩
    · exact ⟨_, _, _, rfl⟩
  · exact ⟨_, _, _, rfl⟩

theorem reportTransfer_of_ne {n : Half} {s : State} (h : ∀ j, s.seq.present = some j → j.stage ≠ .transferring) :
    reportTransfer n s = s := by
  unfold reportTransfer
  split
  · split
    next j hj => exact if_neg (h j hj)
    · rfl
  · rfl

/-- R103 step 7: the TAKE of the PRESENT job. -/
theorem reportTransfer_takes {n : Half} {s : State} {j : PresentJob} (ht : s.hcc.transfer = .shifted n)
    (hj : s.seq.present = some j) (hs : j.stage = .transferring) : reportTransfer n s = { s with
      seq := { s.seq with present := some { j with stage := .taking } }
      hcc := { s.hcc with transfer := .taking n, lastStrobe := some .take } } := by
  simp only [reportTransfer, ht, if_true, hj, hs]
  rfl

/-- A report after an exit from guard leaves what is said of the exit. -/
theorem guardLeft_reportTransfer {s t : State} {run count : Nat} (n : Half) (ht : ¬s.takes) (h : s.guardLeft run count t) :
    s.guardLeft run count (reportTransfer n t) := by
  have present : ∀ c, t.seq.state = .presenting → s.seq.cursor = some c → s.stagedBelongs = false → reportTransfer n t = t := by
    intro c hq hc hb
    refine reportTransfer_of_ne fun j hj => ?_
    cases hj.symm.trans (h.presents c hq ht hc hb).1
    nofun
  obtain ⟨p, x, k, e⟩ := reportTransfer_only n t
  have present' := fun c hq hc hb => e.symm.trans (present c hq hc hb)
  rw [e]
  exact {
    state := h.state
    ready := h.ready
    presents := fun c hq hn hc hb => by
      rw [present' c hq hc hb]
      exact h.presents c hq hn hc hb
    waits := fun _ hk => absurd hk ht
    cleared := h.cleared
    notices := h.notices
    kept := h.kept
    counts := h.counts }

/-! ### What the triggers of a completion leave (R105, R106) -/

theorem measured_level_iff (n : Half) (echo : List ModuleEcho) (s : State) : (s.measured n echo).hcc.faultLevel = false ↔
    ∀ m : Fin 96, m.1 < s.hcc.census → echo[m.1]?.map (·.status) = some .good := by
  have hgood : ∀ x : Option EchoStatus, statusOf (x.getD .other) = .good ↔ x = some .good := by
    rintro (_ | _ | _ | _ | _ | _) <;> decide
  have hiff : (s.measured n echo).hcc.faultLevel = true ↔
      ∃ m : Fin 96, m.1 < s.hcc.census ∧ (s.hcc.recordStatuses (echo.map (·.status))).get m ≠ .good := Hcc.faulty_iff _
  rw [← Bool.not_eq_true, hiff]
  simp only [not_exists, not_and, Classical.not_not]
  refine forall_congr' fun m => imp_congr_right fun hm => ?_
  rw [get_recordStatuses, if_pos hm, hgood, List.getElem?_map]

section
variable (n : Half) (echo : List ModuleEcho) (s : State)

theorem sameModules_transferResults : (s.measured n echo).hcc.SameModules (transferResults n echo s).hcc := by
  rw [transferResults_eq]
  have h1 := sameModules_triggerWhen (s.hcc.budgetSpent (s.mismatched echo)) .echoBudget (s := s.measured n echo) nofun
  exact h1.trans (sameModules_triggerWhen _ .moduleFault (s := reportLevel _) h1.transfer)

theorem moduleLevel_transferResults :
    (transferResults n echo s).grd.moduleLevel = (s.measured n echo).hcc.faultLevel := by
  have hw : ∀ (b : Bool) (x : Trigger) (u : State), (triggerWhen b x u).grd.moduleLevel = u.grd.moduleLevel := by
    intro b x u
    cases b
    · rfl
    · exact trigger_grd_moduleLevel x u
  rw [transferResults_eq, hw]
  exact (sameModules_triggerWhen _ .echoBudget (s := s.measured n echo) nofun).level

theorem kept_measured_transferResults : Kept (s.measured n echo) (transferResults n echo s) := by
  rw [transferResults_eq]
  exact ((kept_triggerWhen ..).trans (kept_reportLevel ..)).trans (kept_triggerWhen ..)

variable {n echo s}

theorem inGuardFor_echoBudget (h : s.seq.state ≠ .unloaded) (hs : s.hcc.budgetSpent (s.mismatched echo) = true)
    (he : s.grd.isEnabled .echoBudget = true) : (transferResults n echo s).InGuardFor .echoBudget := by
  rw [transferResults_eq, hs]
  have hg := inGuardFor_trigger (x := .echoBudget) (s := s.measured n echo) h he
  exact inGuardFor_triggerWhen_keeps _ (s := reportLevel _) hg

theorem inGuardFor_moduleFault (h : s.seq.state ≠ .unloaded) (hf : (s.measured n echo).hcc.faultLevel = true)
    (he : s.grd.isEnabled .moduleFault = true) : (transferResults n echo s).InGuardFor .moduleFault := by
  rw [transferResults_eq, hf]
  have hl := triggerWhen_loaded (s.hcc.budgetSpent (s.mismatched echo)) (x := .echoBudget) (s := s.measured n echo) h
  refine inGuardFor_trigger (s := reportLevel _) hl ?_
  have hk := (kept_triggerWhen (s.hcc.budgetSpent (s.mismatched echo)) .echoBudget (s.measured n echo)).enabled
  rw [Grd.isEnabled, reportLevel, hk]
  exact he

theorem transferResults_quiet (hs : s.hcc.budgetSpent (s.mismatched echo) = false)
    (hf : (s.measured n echo).hcc.faultLevel = false) :
    transferResults n echo s = reportLevel (s.measured n echo) := by
  rw [transferResults_eq, hs, hf]
  rfl

end

/-! ### The exit from guard -/

/-- R170: the completion is one at which guard is left. -/
def State.exitsAt (s : State) (echo : List ModuleEcho) : Prop :=
  s.seq.state = .guard ∧ s.ang.rest = .atRest ∧ s.seq.coasting = false ∧ s.hcc.faultLevel = true ∧
    ¬(s.grd.warp = true ∧ s.grd.isEnabled .warpStop = true) ∧
    ∀ m : Fin 96, m.1 < s.hcc.census → echo[m.1]?.map (·.status) = some .good

theorem levelCause_of_dark (g : Grd) (h : g.moduleLevel = false) :
    g.levelCause = false ↔ ¬(g.warp = true ∧ g.isEnabled .warpStop = true) := by
  rw [levelCause_eq_false_iff, h]
  simp

theorem stagedBelongs_eq (s : State) : s.stagedBelongs =
    (s.xpe.staging.plan.map (·.cursor)).elim false fun c => decide (s.seq.cursor = some c) := by
  unfold State.stagedBelongs
  cases s.xpe.staging.plan <;> rfl

theorem sameExit_transferResults {s : State} (n : Half) (echo : List ModuleEcho) (h : s.seq.state = .guard)
    (ht : ¬s.takes) : s.SameExit (transferResults n echo s) := by
  obtain ⟨totals, causes, k, e⟩ := transferResults_in_guard n echo (.inl h)
  have hplan : (Staging.measured n (s.mismatched echo) s.xpe.staging).plan.map (·.cursor) = s.xpe.staging.plan.map (·.cursor) := by
    unfold Staging.measured
    split
    · rfl
    · exact plan_flagMismatch ..
  rw [e]
  exact {
    cursor := rfl, history := rfl, woven := rfl, owed := rfl, latched := rfl, released := rfl, dropHeld := rfl
    census := rfl
    taking := iff_of_false nofun ht
    transfer := fun k => absurd k ht
    staged := by rw [stagedBelongs_eq, stagedBelongs_eq]; exact congrArg (Option.elim · _ _) hplan
    chu := rfl
    entry := rfl }

theorem transferEnds_exits {s : State} {n : Half} {echo : List ModuleEcho} (h : s.exitsAt echo) (ht : ¬s.takes) :
    s.guardLeft s.grd.run s.grd.count (transferEnds n echo s) := by
  obtain ⟨hg, hr, hc, hl, hw, hgood⟩ := h
  have hf := (measured_level_iff n echo s).2 hgood
  obtain ⟨totals, causes, k, e⟩ := transferResults_in_guard n echo (.inl hg)
  have hmay : (transferResults n echo s).mayExit = true := by
    rw [mayExit_iff, e, levelCause_of_dark _ hf]
    exact ⟨hr, hc, hw⟩
  have hstate : (transferResults n echo s).seq.state = .guard := by rw [e]; exact hg
  have hlevel : (transferResults n echo s).hcc.faultLevel = false := by rw [e]; exact hf
  have hexit : transferEnds n echo s = reportTransfer n (presentOwed (guardExit (transferResults n echo s))) := by
    simp only [transferEnds, hl, hlevel, Bool.not_false, Bool.true_and, if_true]
    rw [exitCheck_of_mayExit hstate hmay]
  rw [hexit]
  refine guardLeft_reportTransfer n ht ((sameExit_transferResults n echo hg ht).guardLeft (guardLeft_of_counts ?_ ?_)) <;>
    rw [e]

theorem transferEnds_stays {s : State} {n : Half} {echo : List ModuleEcho} (h : ¬s.exitsAt echo) :
    transferEnds n echo s = reportTransfer n (transferResults n echo s) := by
  by_cases hg : s.seq.state = .guard
  · obtain ⟨totals, causes, k, e⟩ := transferResults_in_guard n echo (.inl hg)
    simp only [transferEnds]
    congr 1
    rw [ite_eq_right_iff]
    intro hl
    obtain ⟨hl, hf⟩ := Bool.and_eq_true_iff.1 hl
    rw [e, Bool.not_eq_true'] at hf
    rw [exitCheck, ite_eq_right_iff]
    refine fun hm => absurd ?_ h
    have hmay := (mayExit_iff _).1 hm.2
    rw [e, levelCause_of_dark _ hf] at hmay
    exact ⟨hg, hmay.1, hmay.2.1, hl, hmay.2.2, (measured_level_iff n echo s).1 hf⟩
  · exact transferEnds_of_ne n echo hg

/-! ### The statement -/

theorem budgetSpent_iff (h : Hcc) (bad : List Nat) :
    h.budgetSpent bad = true ↔ h.compares = true ∧ bad ≠ [] ∧ h.budget ≤ 1 := by
  cases bad <;> simp [Hcc.budgetSpent]

theorem get_raiseErrors (bad : List Nat) (v : Vector Nat 96) (m : Fin 96) : (raiseErrors bad v).get m =
    if m.1 ∈ bad ∧ v.get m < 65535 then v.get m + 1 else v.get m := by
  rw [raiseErrors, get_ofFn, raiseTo]
  by_cases h : m.1 ∈ bad
  · simp only [h, if_true, true_and]
  · simp only [h, if_false, false_and]

theorem staging_measured {n : Half} {bad : List Nat} {p : Plan} {image : List Bool} :
    Staging.measured n bad (.complete p image) =
      .complete { p with echoMismatch := p.echoMismatch || (!bad.isEmpty && decide (p.cursor.serial = n)) } image := by
  have hp : { p with echoMismatch := p.echoMismatch } = p := rfl
  unfold Staging.measured
  cases bad with
  | nil => simp
  | cons b l =>
    by_cases hn : p.cursor.serial = n <;> simp [Staging.flagMismatch, Staging.modPlan, Plan.serial, hn]

theorem notice_measured {bad : List Nat} (k : Link) (h : bad ≠ []) : .echoMismatch ∈ (Link.measured bad k).notices := by
  cases bad with
  | nil => exact absurd rfl h
  | cons b l =>
    have hm : .echoMismatch ∈ (raise .p .echoMismatch { State.reset with plk := k }).plk.notices := by simp
    exact hm

/-- Settles O44: the exit by `transferEnds_exits`; otherwise what is said of the completion is that of `State.measured`, which
the triggers keep. -/
theorem transferCompletionComparesEcho : Obligations.TransferCompletionComparesEcho := by
  intro s echo
  refine ⟨fun h => ?_, fun n exits hn hx => ⟨fun he _ => ⟨_, exec_transferCompletion_shifting hn echo, ?_⟩, fun he => ?_⟩⟩
  · show execTransferCompletion echo s = _
    unfold execTransferCompletion
    split
    next k hk => exact absurd hk (h k)
    all_goals rfl
  · exact transferEnds_exits (hx.1 he) (by rintro ⟨k, hk⟩; rw [hn] at hk; cases hk)
  obtain ⟨htr, hstatus, herrors, hlevel, hcensus⟩ := sameModules_transferResults n echo s
  obtain ⟨q, x, k, e⟩ := reportTransfer_only n (transferResults n echo s)
  have hends : transferEnds n echo s = reportTransfer n (transferResults n echo s) := transferEnds_stays fun hk => he (hx.2 hk)
  have hecho : (transferEnds n echo s).hcc.echoRecord = _ :=
    (congrArg (·.hcc.echoRecord) hends).trans ((echoRecord_reportTransfer ..).trans
      ((echoRecord_transferResults ..).trans (echoRecord_compareEcho ..)))
  obtain ⟨hlast, hrest⟩ := Prod.mk.inj hecho
  obtain ⟨hbudget, hthreshold⟩ := Prod.mk.inj hrest
  refine ⟨_, s.mismatched echo, s.hcc.compares, s.hcc.budgetSpent (s.mismatched echo), exec_transferCompletion_shifting hn echo,
    by rw [compares_eq, decide_eq_true_iff], pairwise_mismatched s echo, fun m => ?_, budgetSpent_iff .., hlast, fun m => ?_,
    hthreshold, hbudget.trans ?_, fun m => ?_, ?_, ?_, fun hb => ?_, fun hg hs hen => ?_, fun hg hf hen => ?_,
    fun hs hf => ?_⟩
  · rw [mem_mismatched_iff]
    refine and_congr_right fun _ => and_congr_right fun _ => exists_congr fun j => and_congr_right fun _ =>
      and_congr_right fun _ => ?_
    cases echo[m]? <;> cases s.hcc.latched <;> exact Iff.rfl
  · rw [hends, e]
    exact (congrArg (·.get m) herrors).trans (get_raiseErrors ..)
  · unfold Hcc.budgetAfter
    cases hc : s.hcc.compares <;> simp [List.isEmpty_iff]
  · rw [hends, e]
    refine (congrArg (·.get m) hstatus).trans ((get_recordStatuses ..).trans ?_)
    rw [List.getElem?_map]
    cases echo[m.1]? with
    | none => rfl
    | some r =>
      show (if m.1 < s.hcc.census then statusOf r.status else s.hcc.status.get m) = _
      cases hr : r.status <;> simp only [Option.map_some, hr] <;> rfl
  · rw [hends, e]
    show (transferResults n echo s).hcc.faultLevel = true ↔ ∃ m : Fin 96, m.1 < s.hcc.census ∧
      (transferResults n echo s).hcc.status.get m ≠ .good
    rw [hlevel, hstatus]
    exact Hcc.faulty_iff _
  · rw [hends, e]
    exact (moduleLevel_transferResults n echo s).trans hlevel.symm
  · rw [hends, e]
    exact ((kept_measured_transferResults n echo s).links .p).notices _ (notice_measured _ hb)
  · rw [hends, e]
    exact inGuardFor_echoBudget (SeqState.loaded_of_guarded hg) hs hen
  · rw [hends, e] at hf ⊢
    exact inGuardFor_moduleFault (SeqState.loaded_of_guarded hg) (hlevel.symm.trans hf) hen
  · have hf' : (s.measured n echo).hcc.faultLevel = false := by
      rw [hends, e] at hf
      exact hlevel.symm.trans hf
    have hquiet := transferResults_quiet hs hf'
    have stays : ∀ (Q : State → Prop), (∀ q x k, Q { reportLevel (s.measured n echo) with
        seq := { s.seq with present := q }
        hcc := { (s.measured n echo).hcc with transfer := x, lastStrobe := k } }) → Q (transferEnds n echo s) := by
      intro Q hQ
      rw [hends, e, hquiet]
      exact hQ _ _ _
    refine ⟨fun j hj hjs => ?_, fun hj => ?_, stays (·.hcc.latched = _) fun _ _ _ => rfl,
      stays (·.wft = _) fun _ _ _ => rfl, stays (·.chu = _) fun _ _ _ => rfl, stays (·.hmp = _) fun _ _ _ => rfl,
      stays (·.fst = _) fun _ _ _ => rfl, fun p image hp =>
      ⟨p.echoMismatch || (!(s.mismatched echo).isEmpty && decide (p.cursor.serial = n)), stays (·.xpe = _) fun _ _ _ => ?_, ?_⟩⟩
    · rw [hends, hquiet, reportTransfer_takes (s := reportLevel (s.measured n echo)) rfl hj hjs]
      exact ⟨rfl, rfl, rfl⟩
    · rw [hends, hquiet, reportTransfer_of_ne (s := reportLevel (s.measured n echo)) hj]
      exact ⟨rfl, rfl⟩
    · have hx : ({ s.xpe with staging := Staging.measured n (s.mismatched echo) s.xpe.staging } : Xpe) = _ :=
        congrArg (fun y => { s.xpe with staging := y }) ((congrArg _ hp).trans staging_measured)
      exact hx
    · simp

end Sys2Proof.Machine
end

section
/-! PROOFS. Edges, timers and lines (R1, R6, R13, R87, R163, R170). -/

namespace Sys2Proof.Machine

/-- R170: a level that has fallen brings the exit check. -/
theorem exitCheck_leaves {s u : State} (hx : s.SameExit u) (hr : u.grd.run = s.grd.run) (hn : u.grd.count = s.grd.count)
    (hg : u.seq.state = .guard) (hm : u.mayExit = true) : s.guardLeft s.grd.run s.grd.count (exitCheck u) := by
  rw [exitCheck_of_mayExit hg hm]
  exact hx.guardLeft (guardLeft_of_counts hr hn)

theorem exitCheck_stays {u : State} (h : ¬(u.seq.state = .guard ∧ u.ang.rest = .atRest ∧ u.seq.coasting = false ∧
    u.grd.levelCause = false)) : exitCheck u = u :=
  if_neg fun k => h ⟨k.1, (mayExit_iff u).1 k.2⟩

/-- R163: the filter timer expires. -/
theorem exec_filterTimerExpiry {s : State} (h : s.grd.filterTimer ≠ none) : exec .filterTimerExpiry s = .next
    (if s.grd.warp = s.grd.rawWarp then { s with grd := { s.grd with filterTimer := none } }
    else if s.grd.rawWarp = true then trigger .warpStop { s with grd := { s.grd with filterTimer := none, warp := true } }
    else exitCheck { s with grd := { s.grd with filterTimer := none, warp := false } }) := by
  obtain ⟨k, hk⟩ := Option.ne_none_iff_exists'.1 h
  have he : exec .filterTimerExpiry s = execFilterTimerExpiry s := rfl
  rw [he, execFilterTimerExpiry, hk]
  cases hw : s.grd.warp <;> cases hr : s.grd.rawWarp <;> simp only [reduceCtorEq, if_true, if_false] <;>
    exact congrArg (fun b => Host.Outcome.next { s with grd := { s.grd with filterTimer := none, warp := b } }) hw.symm

/-- Settles O52: each row by what it finds of the window, the timer and the line; the fall of the line by the exit check. -/
theorem edgesAndTimersAct : Obligations.EdgesAndTimersAct := by
  intro s
  have arrival : exec .arrivalEdge s = execArrivalEdge s := rfl
  have stall : exec .stallTimerExpiry s = execStallTimerExpiry s := rfl
  have filter : exec .filterTimerExpiry s = execFilterTimerExpiry s := rfl
  refine ⟨fun n hw hc => ?_, fun n a hw hc => ?_, fun hw => ?_, fun encz => rfl, fun ht => ?_, fun ht => ?_,
    fun level hl => if_neg hl, if_pos rfl, fun hf => ?_, fun hf => ⟨fun hw => ?_, fun hw hr => ?_, fun hw hr =>
    ⟨{ s with grd := { s.grd with filterTimer := none, warp := false } }, rfl, fun hn => ?_, fun hg hr' hc hl => ⟨_, exec_filterTimerExpiry hf, ?_⟩⟩⟩⟩
  · rw [arrival, execArrivalEdge, hw, hc]
  · rw [arrival, execArrivalEdge, hw, hc]
    rfl
  · rw [arrival, execArrivalEdge, hw]
    rfl
  · obtain ⟨k, hk⟩ := Option.ne_none_iff_exists'.1 ht
    rw [stall, execStallTimerExpiry, hk]
  · rw [stall, execStallTimerExpiry, ht]
  · rw [filter, execFilterTimerExpiry, hf]
  · rw [exec_filterTimerExpiry hf, if_pos hw]
  · rw [exec_filterTimerExpiry hf, hw, hr]
    rfl
  · rw [exec_filterTimerExpiry hf, hw, hr]
    exact congrArg _ (exitCheck_stays hn)
  · rw [hw, hr]
    exact exitCheck_leaves (sameExit_of_units rfl rfl rfl rfl rfl) rfl rfl hg ((mayExit_iff _).2 ⟨hr', hc, hl⟩)

end Sys2Proof.Machine
end

section
/-! PROOFS. Which plans stand after a trigger and after a re-plan (R81 to R85), and the accounting of a failure (R93). -/

namespace Sys2Proof.Machine

/-! ### The plans after a trigger -/

/-- Every plan of `t` is a plan of `s`. -/
structure State.FewerPlans (s t : State) : Prop where
  pending : ∀ p, t.pendingPlan = some p → s.pendingPlan = some p
  staged : ∀ q, t.xpe.staging.plan = some q → s.xpe.staging.plan = some q

theorem State.FewerPlans.refl (s : State) : s.FewerPlans s := ⟨fun _ => id, fun _ => id⟩

theorem State.FewerPlans.trans {s t u : State} (h : s.FewerPlans t) (k : t.FewerPlans u) : s.FewerPlans u :=
  ⟨fun p hp => h.pending p (k.pending p hp), fun q hq => h.staged q (k.staged q hq)⟩

theorem pendingPlan_congr {s t : State} (hl : t.hcc.latched.plan = s.hcc.latched.plan)
    (hr : t.hcc.holdsReleased = s.hcc.holdsReleased) (hc : t.seq.cursor = s.seq.cursor) : t.pendingPlan = s.pendingPlan := by
  unfold State.pendingPlan
  rw [hl, hr, hc]

theorem fewerPlans_of_units {s t : State} (hl : t.hcc.latched = s.hcc.latched ∨ t.hcc.latched = .closed)
    (hr : t.hcc.holdsReleased = s.hcc.holdsReleased) (hc : t.seq.cursor = s.seq.cursor)
    (hx : t.xpe.staging = s.xpe.staging ∨ t.xpe.staging = .empty) : s.FewerPlans t where
  pending := fun p hp => by
    rcases hl with hl | hl
    · rwa [pendingPlan_congr (congrArg Latched.plan hl) hr hc] at hp
    · have hnone := (pendingPlan_eq_some.1 hp).1
      rw [hl] at hnone
      cases hnone
  staged := fun q hq => by
    rcases hx with hx | hx <;> rw [hx] at hq
    · exact hq
    · cases hq

/-- R164 step 4, R165: a guard entry discards what is staged and may close the latches; it makes no plan. -/
theorem fewerPlans_guardEntry (x : Trigger) (s : State) : s.FewerPlans (guardEntry x s) := by
  have hc := (kept_guardEntry x s).cursor
  cases h : s.hcc.isTaking
  · have hx := congrArg Xpe.staging (guardEntry_xpe (t := x) h)
    cases hs : s.grd.shed
    · obtain ⟨_, _, e, _⟩ := guardEntry_hold (t := x) hs h
      exact fewerPlans_of_units (.inl (by rw [e])) (by rw [e]) hc (.inr hx)
    · obtain ⟨_, _, e, _⟩ := guardEntry_close (t := x) hs h
      exact fewerPlans_of_units (.inr (by rw [e])) (by rw [e]) hc (.inr hx)
  · obtain ⟨hx, e⟩ := guardEntry_taking (t := x) h
    refine fewerPlans_of_units (.inl ?_) ?_ hc (.inl (by rw [hx])) <;> rw [e] <;> split <;> rfl

theorem fewerPlans_trigger (x : Trigger) (s : State) : s.FewerPlans (trigger x s) := by
  rcases trigger_cases x s with ⟨_, e⟩ | ⟨_, _, e⟩ | ⟨_, _, e⟩ | ⟨_, _, e⟩ <;> rw [e]
  · exact fewerPlans_of_units (.inl rfl) rfl rfl (.inl rfl)
  · exact fewerPlans_of_units (.inl rfl) rfl rfl (.inl rfl)
  · exact fewerPlans_of_units (.inl rfl) rfl rfl (.inl rfl)
  · have h := fewerPlans_guardEntry x (countTrigger x s)
    exact ⟨h.pending, h.staged⟩

theorem fewerPlans_triggerWhen (b : Bool) (x : Trigger) (s : State) : s.FewerPlans (triggerWhen b x s) := by
  cases b
  · exact .refl _
  · exact fewerPlans_trigger x s

theorem fewerPlans_raise (l : LinkId) (n : NoticeKind) (s : State) : s.FewerPlans (raise l n s) :=
  fewerPlans_of_units (.inl (by rw [raise_hcc])) (by rw [raise_hcc]) (by rw [raise_seq]) (.inl (by rw [raise_xpe]))

theorem fewerPlans_replanned (b p q : Bool) (s : State) : s.FewerPlans (replanned b p q s) := by
  unfold replanned
  refine .trans ?_ (fewerPlans_triggerWhen ..)
  split
  · exact (fewerPlans_raise .w .planChanged s).trans (fewerPlans_raise ..)
  · exact fewerPlans_raise ..

/-! ### The plans after a re-plan -/

/-- The plan names no feeder, or one in READY. -/
def Wft.Serves (w : Wft) (p : Plan) : Prop := ∀ f, p.feeder = some f → (w.feeders.get f).state = .ready

theorem serves_choose {w v : Wft} {p : Plan} {x : Weft} (hv : v.feeders = w.feeders) (hp : p.feeder = (v.choose x).feeder) :
    w.Serves p := fun f hf => by
  rw [← hv]
  exact choose_ready (hp.symm.trans hf)

theorem foundBy_feeders (w : Wft) (g : Option PlannedGroup) : (w.foundBy g).feeders = w.feeders := by cases g <;> rfl

theorem foundWhen_feeders (back : Bool) (w : Wft) (g : Option PlannedGroup) :
    (if back then w.foundBy g else w).feeders = w.feeders := by
  cases back
  · rfl
  · exact foundBy_feeders w g

/-- R84: the pending plan planned again. -/
theorem pendingPlan_replanPending {s : State} {x p : Plan} (back : Bool) (hp : s.pendingPlan = some p)
    (h : (replanPending back s).pendingPlan = some x) :
    x = { p with
      feeder := ((if back then s.wft.foundBy p.group else s.wft).choose (s.cardOf p.cursor).weft).feeder
      group := ((if back then s.wft.foundBy p.group else s.wft).choose (s.cardOf p.cursor).weft).group } := by
  have hlat := (pendingPlan_eq_some.1 hp).1
  cases hl : s.hcc.latched with
  | unknown => rw [hl] at hlat; cases hlat
  | closed => rw [hl] at hlat; cases hlat
  | pick p0 image =>
    rw [hl] at hlat
    cases hlat
    rw [replanPending_eq hl hp] at h
    exact (Option.some.inj (pendingPlan_eq_some.1 h).1).symm

theorem serves_replanPending {s : State} {x : Plan} (back : Bool) (h : (replanPending back s).pendingPlan = some x) :
    s.wft.Serves x := by
  cases hp : s.pendingPlan with
  | none =>
    rw [replanPending, hp] at h
    cases hp.symm.trans h
  | some p =>
    rw [pendingPlan_replanPending back hp h]
    exact serves_choose (foundWhen_feeders ..) rfl

theorem serves_replanStaged {s : State} {x : Plan} (back : Bool) (h : (replanStaged back s).xpe.staging.plan = some x) :
    s.wft.Serves x := by
  cases hq : s.xpe.staging.plan with
  | none =>
    rw [replanStaged, hq] at h
    cases hq.symm.trans h
  | some q =>
    rw [replanStaged_eq hq] at h
    cases hs : s.xpe.staging with
    | empty => rw [hs] at hq; cases hq
    | filling r => rw [hs] at h; cases h; exact serves_choose (foundWhen_feeders back s.wft q.group) rfl
    | complete r i => rw [hs] at h; cases h; exact serves_choose (foundWhen_feeders back s.wft q.group) rfl

theorem pendingPlan_replanStaged (back : Bool) (s : State) : (replanStaged back s).pendingPlan = s.pendingPlan := by
  obtain ⟨hh, hq⟩ := replanStaged_keeps back s
  exact pendingPlan_congr (by rw [hh]) (by rw [hh]) (by rw [hq])

/-- R84, R85: after a re-plan each plan that was named serves; the others are as before, as far as they still stand. -/
theorem replan_pending {s : State} {p q : Bool} {x : Plan} (h : (replan p q s).pendingPlan = some x) :
    p = true ∧ s.wft.Serves x ∨ p = false ∧ s.pendingPlan = some x := by
  unfold replan at h
  split at h
  · have h1 := (fewerPlans_replanned ..).pending x h
    have h2 : (if p then replanPending true s else s).pendingPlan = some x := by
      cases q
      · exact h1
      · exact (pendingPlan_replanStaged ..).symm.trans h1
    cases p
    · exact .inr ⟨rfl, h2⟩
    · exact .inl ⟨rfl, serves_replanPending true h2⟩
  next hn =>
    cases p
    · exact .inr ⟨rfl, h⟩
    · exact absurd rfl hn

theorem replan_staged {s : State} {p q : Bool} {x : Plan} (h : (replan p q s).xpe.staging.plan = some x) :
    q = true ∧ s.wft.Serves x ∨ q = false ∧ s.xpe.staging.plan = some x := by
  have hx : (if p then replanPending true s else s).xpe = s.xpe ∧
      (if p then replanPending true s else s).wft.feeders = s.wft.feeders := by
    cases p
    · exact ⟨rfl, rfl⟩
    · exact ⟨(replanPending_keeps true s).1, (kept_replanPending true s).feeders⟩
  unfold replan at h
  split at h
  · have h1 := (fewerPlans_replanned ..).staged x h
    cases q
    · exact .inr ⟨rfl, by rw [← hx.1]; exact h1⟩
    · refine .inl ⟨rfl, fun f hf => ?_⟩
      rw [← hx.2]
      exact serves_replanStaged _ h1 f hf
  next hn =>
    cases q
    · exact .inr ⟨rfl, h⟩
    · exact absurd (Bool.or_true p) hn

/-- R84: after the re-plan of a feeder that is not READY no plan names it. -/
theorem replanFrom_names_none {s : State} {f : Fin 8} (hf : (s.wft.feeders.get f).state ≠ .ready) :
    (∀ p, (replanFrom f s).pendingPlan = some p → p.feeder ≠ some f) ∧
      ∀ p, (replanFrom f s).xpe.staging.plan = some p → p.feeder ≠ some f := by
  refine ⟨fun p hp hn => ?_, fun p hp hn => ?_⟩
  · rcases replan_pending hp with ⟨_, hs⟩ | ⟨hk, hs⟩
    · exact hf (hs f hn)
    · rw [hs, Bool.eq_false_iff] at hk
      exact hk (decide_eq_true hn)
  · rcases replan_staged hp with ⟨_, hs⟩ | ⟨hk, hs⟩
    · exact hf (hs f hn)
    · rw [hs, Bool.or_eq_false_iff, Bool.eq_false_iff] at hk
      exact hk.1 (decide_eq_true hn)

/-- R84, R85: a re-plan of any plan is noticed. -/
theorem planChanged_replan {s : State} {p q : Bool} (h : p = true ∨ q = true) : .planChanged ∈ (replan p q s).wlk.notices := by
  have hr : ∀ (b : Bool) (u : State), .planChanged ∈ (replanned b p q u).wlk.notices := fun b u => by
    have hw : .planChanged ∈ (raise .w .planChanged u).wlk.notices := by simp
    unfold replanned
    refine ((kept_triggerWhen ..).links .w).notices _ ?_
    show NoticeKind.planChanged ∈ (ite _ _ _ : State).wlk.notices
    split
    · exact hw
    · exact hw
  unfold replan
  rw [if_pos (by simpa using h)]
  exact hr _ _

theorem planChanged_replanFrom {s : State} {f : Fin 8}
    (h : ∃ p, (s.pendingPlan = some p ∨ s.xpe.staging.plan = some p) ∧ p.feeder = some f) :
    .planChanged ∈ (replanFrom f s).wlk.notices := by
  obtain ⟨p, hp | hp, hf⟩ := h
  · exact planChanged_replan (.inl (planNames_iff.2 ⟨p, hp, hf⟩))
  · exact planChanged_replan (.inr (by rw [planNames_iff.2 ⟨p, hp, hf⟩]; rfl))

/-! ### The accounting of a failure (R93) -/

theorem failureAccounted_accountFailure (f : Option (Fin 8)) (u : State) : u.failureAccounted f (accountFailure f u) := by
  refine ⟨fun h => by rw [h]; rfl, fun i x hf hx => ?_⟩
  subst hf
  have hfail : (u.wft.feeders.get i).failVerdict = x := hx.symm
  have hsus : u.wft.suspends i = true ↔ x.state = .ready ∧ u.wft.limit ≤ x.failures := by
    rw [hx]
    simp only [Wft.suspends, raiseTo, Bool.and_eq_true]
    exact and_congr decide_eq_true_iff decide_eq_true_iff
  have he : accountFailure (some i) u = if u.wft.suspends i then
      replanFrom i (raise .p .feederStateChanged (raise .p .feederSuspended
        { u with wft := u.wft.setFeeder i { x with state := .suspended, mark := true } }))
      else { u with wft := u.wft.setFeeder i x } := by rw [← hfail]; rfl
  refine ⟨fun hn => ?_, fun h1 h2 => ?_⟩
  · rw [he, if_neg (mt hsus.1 hn)]
    rfl
  · rw [he, if_pos (hsus.2 ⟨h1, h2⟩)]
    obtain ⟨v, hv⟩ : ∃ v : State, v = raise .p .feederStateChanged (raise .p .feederSuspended
        { u with wft := u.wft.setFeeder i { x with state := .suspended, mark := true } }) := ⟨_, rfl⟩
    have hk := kept_replanFrom i v
    have hout : (v.wft.feeders.get i).state ≠ .ready := by
      have hg : v.wft.feeders.get i = { x with state := .suspended, mark := true } := by
        rw [hv]
        exact get_upd ..
      rw [hg]
      nofun
    obtain ⟨hp, hq⟩ := replanFrom_names_none hout
    rw [← hv]
    refine ⟨?_, ?_, (hk.links .p).notices _ ?_, (hk.links .p).notices _ ?_, hp, hq, fun h => planChanged_replanFrom ?_⟩
    · have hr := replanFrom_replansFrom i v
      rw [hv] at hr ⊢
      exact hr
    · rw [hk.feeders, hv]
      rfl
    · rw [hv]
      simp
    · rw [hv]
      simp
    · rw [hv]
      exact h

end Sys2Proof.Machine
end

section
/-! PROOFS. The commit of a pick (R88, R128, R130, R151 to R154, R168) and its verdict. -/

namespace Sys2Proof.Machine

/-! ### What the commit leaves of each unit -/

theorem moveCursor_wft (c : Cursor) (s : State) : ∃ g : Vector Group 8, (moveCursor c s).wft = { s.wft with groups := g } := by
  unfold moveCursor
  dsimp only
  have hp : (placeCursor s.seq.state c s).wft = s.wft := by rw [(recounted_placeCursor s.seq.state c s).only]
  split
  · exact ⟨s.wft.groups, hp⟩
  · obtain ⟨g, hg⟩ := discardStaging_wft (placeCursor s.seq.state c s)
    exact ⟨g, hg.trans (by rw [hp])⟩

theorem moveCursor_grd (c : Cursor) (s : State) : (moveCursor c s).grd = s.grd := by
  unfold moveCursor
  dsimp only
  have hp : (placeCursor s.seq.state c s).grd = s.grd := by rw [(recounted_placeCursor s.seq.state c s).only]
  split
  · exact hp
  · rw [discardStaging_grd]
    exact hp

theorem target_recorded (p : Plan) (s : State) (c : Change) (n : Cursor) : (recorded p s).target c n = s.target c n := by
  unfold State.target
  rw [recorded_design]

/-- The cursor after the commit of the pick of plan `p` (R58, R154 step 2). -/
def State.cursorAfter (s : State) (p : Plan) : Cursor :=
  match s.appliedAt p with
  | some c => s.target c p.cursor
  | none => (s.advance p.cursor).1

/-- R128: the commit moves the cursor; the change that applies is released. -/
theorem recounted_commitCore (p : Plan) (s : State) :
    (moveCursor (s.cursorAfter p) (recorded p s)).Recounted (commitCore p s) := by
  rw [commitCore_eq, State.cursorAfter]
  cases s.appliedAt p with
  | none => exact .refl _
  | some c =>
    dsimp only
    rw [target_recorded]
    exact recounted_release ..

theorem recorded_only (p : Plan) (s : State) : (recorded p s).wft = s.wft ∧ (recorded p s).grd = s.grd ∧
    (recorded p s).plk = s.plk := by
  unfold recorded
  dsimp only
  rw [(recounted_appendEntry (s.entryAt p) s).only]
  exact ⟨rfl, rfl, rfl⟩

theorem seq_commitCore (p : Plan) (s : State) : (commitCore p s).seq = { s.seq.joined (s.entryAt p) with
    woven := s.seq.woven + 1, cursor := some (s.cursorAfter p), serial := (s.cursorAfter p).serial } := by
  rw [(recounted_commitCore p s).seq_eq, moveCursor_seq, recorded_seq]

theorem chu_commitCore (p : Plan) (s : State) : (commitCore p s).chu =
    { s.chu.countHits (s.chu.hitsOn p) with queue := queueAfter s.chu.queue (s.headOutcome p) } := by
  rw [(recounted_commitCore p s).chu_eq, moveCursor_chu, recorded_chu]

theorem wft_commitCore (p : Plan) (s : State) : ∃ g : Vector Group 8, (commitCore p s).wft = { s.wft with groups := g } := by
  obtain ⟨g, hg⟩ := moveCursor_wft (s.cursorAfter p) (recorded p s)
  refine ⟨g, ?_⟩
  rw [congrArg State.wft (recounted_commitCore p s).only, ← (recorded_only p s).1]
  exact hg

theorem grd_commitCore (p : Plan) (s : State) : (commitCore p s).grd = s.grd := by
  rw [congrArg State.grd (recounted_commitCore p s).only, ← (recorded_only p s).2.1]
  exact moveCursor_grd ..

theorem cursorAfter_serial (s : State) (p : Plan) : (s.cursorAfter p).serial = p.cursor.serial + 1 := by
  unfold State.cursorAfter
  split
  · rfl
  · exact advance_serial s p.cursor

/-! ### The notices of a commit and MARK-STOP -/

/-- The state of a commit with the notices of CHU, before its trigger (R151, R154). -/
def noticed (hits : List (Fin 4)) (applied : Bool) (s : State) : State :=
  let s := if hits.any (fun k => (s.chu.comps.get k).notice) then raise .p .markHit s else s
  if applied then raise .p .changeApplied s else s

theorem noticed_only (hits : List (Fin 4)) (applied : Bool) (s : State) :
    noticed hits applied s = { s with plk := (noticed hits applied s).plk } := by
  unfold noticed
  dsimp only
  split <;> split <;> rfl

theorem kept_noticed (hits : List (Fin 4)) (applied : Bool) (s : State) : Kept s (noticed hits applied s) := by
  unfold noticed
  exact kept_ite ((kept_ite (kept_raise ..) (Kept.refl _)).trans (kept_raise ..)) (kept_ite (kept_raise ..) (Kept.refl _))

theorem markHit_noticed {hits : List (Fin 4)} {s : State} (applied : Bool)
    (h : ∃ k ∈ hits, (s.chu.comps.get k).notice = true) : .markHit ∈ (noticed hits applied s).plk.notices := by
  unfold noticed
  rw [if_pos (List.any_eq_true.2 h)]
  cases applied <;> simp

theorem changeApplied_noticed (hits : List (Fin 4)) (s : State) : .changeApplied ∈ (noticed hits true s).plk.notices := by
  simp [noticed]

theorem commitNotices_eq (hits : List (Fin 4)) (applied : Bool) (s : State) : commitNotices hits applied s =
    triggerWhen (hits.any fun k => (s.chu.comps.get k).stop) .markStop (noticed hits applied s) := by
  have h : ∀ k, ((noticed hits applied s).chu.comps.get k).stop = (s.chu.comps.get k).stop := fun k => by
    rw [noticed_only]
  unfold commitNotices
  exact congrArg (fun f => triggerWhen (hits.any f) .markStop (noticed hits applied s)) (funext h)

/-- A window that is closed stays closed through a trigger. -/
theorem trigger_window {x : Trigger} {s : State} (hw : s.wft.window = none) (hr : s.wft.report = none) :
    (trigger x s).wft.window = none ∧ (trigger x s).wft.report = none := by
  rcases trigger_cases x s with ⟨_, e⟩ | ⟨_, _, e⟩ | ⟨_, _, e⟩ | ⟨_, _, e⟩ <;> rw [e]
  · exact ⟨hw, hr⟩
  · exact ⟨hw, hr⟩
  · exact ⟨hw, hr⟩
  · obtain ⟨g, hg⟩ := guardEntry_wft x (countTrigger x s)
    rw [hg]
    exact ⟨rfl, rfl⟩

theorem triggerWhen_window (b : Bool) {x : Trigger} {s : State} (hw : s.wft.window = none) (hr : s.wft.report = none) :
    (triggerWhen b x s).wft.window = none ∧ (triggerWhen b x s).wft.report = none := by
  cases b
  · exact ⟨hw, hr⟩
  · exact trigger_window hw hr

/-! ### The comparators and the head of the queue -/

theorem mem_hitsOn_iff (u : Chu) (p : Plan) (k : Fin 4) : k ∈ u.hitsOn p ↔
    p.cursor.rep = 0 ∧ (u.comps.get k).test p.mark = true := by
  unfold Chu.hitsOn
  split
  next h => simp [h]
  next h => simp [h]

theorem test_iff (c : Comparator) (m : BitVec 8) : c.test m = true ↔
    (match c.mode with
      | .off => False
      | .matching => m &&& c.mask = c.value &&& c.mask
      | .any => m &&& c.mask ≠ 0) := by
  unfold Comparator.test
  cases c.mode
  · simp
  · exact decide_eq_true_iff
  · exact decide_eq_true_iff

theorem get_countHits (u : Chu) (hits : List (Fin 4)) (k : Fin 4) : (u.countHits hits).comps.get k = { u.comps.get k with
    hits := if k ∈ hits ∧ (u.comps.get k).hits < 65535 then (u.comps.get k).hits + 1 else (u.comps.get k).hits } := by
  simp only [Chu.countHits, get_ofFn, raiseTo]
  by_cases hk : k ∈ hits
  · simp only [hk, if_true, true_and]
  · simp only [hk, if_false, false_and]

theorem applies_iff (c : Change) (hits : List (Fin 4)) (wraps : Bool) : c.counted.applies hits wraps = true ↔
    c.condition = .nextPick ∨ (c.condition = .atRepeatEnd ∧ wraps = true) ∨ (∃ k ∈ hits, c.condition = .atMark k.1) ∨
      ∃ m x, c.condition = .atCount m ∧ c.remaining = some x ∧ x ≤ 1 := by
  cases hc : c.condition with
  | nextPick => simp [Change.counted, Change.isCount, Change.applies, hc]
  | atRepeatEnd => simp [Change.counted, Change.isCount, Change.applies, hc]
  | atMark k =>
    have hk : ∀ a : Fin 4, a.1 = k ↔ k = a.1 := fun a => eq_comm
    simp [Change.counted, Change.isCount, Change.applies, hc, hk]
  | atCount n =>
    cases hr : c.remaining with
    | none => simp [Change.counted, Change.isCount, Change.applies, hc, hr]
    | some x =>
      simp [Change.counted, Change.isCount, Change.applies, hc, hr]
      omega

theorem counted_of_isCount {c : Change} {m x : Nat} (h : c.condition = .atCount m) (hr : c.remaining = some x) :
    c.counted = { c with remaining := some (x - 1) } := by
  simp [Change.counted, Change.isCount, h, hr]

theorem counted_of_not_isCount {c : Change} (h : ∀ m, c.condition ≠ .atCount m) : c.counted = c := by
  cases hc : c.condition with
  | atCount n => exact absurd hc (h n)
  | nextPick | atRepeatEnd | atMark => simp [Change.counted, Change.isCount, hc]

theorem counted_only (c : Change) : ∃ m : Option Nat, c.counted = { c with remaining := m } := by
  unfold Change.counted
  split <;> exact ⟨_, rfl⟩

theorem record_counted (c : Change) : c.counted.record = ⟨c.id, c.slot, c.card, c.condition, c.phaseReset⟩ := by
  unfold Change.counted
  split <;> rfl

/-! ### The COMMIT verdict -/

/-- The state in which the pick of plan `p` commits: the window closed and the accounting made (R88, R93). -/
def State.closing (s : State) (p : Plan) (n : Half) : State := accountCommit p.feeder (closeWindow n .commit s)

/-- The state of a commit before its notices (R128, R168). -/
def State.committing (s : State) (p : Plan) (n : Half) : State :=
  { commitCore p (s.closing p n) with grd := (commitCore p (s.closing p n)).grd.commit }

theorem closing_only (s : State) (p : Plan) (n : Half) : s.closing p n = { s with wft := (s.closing p n).wft } := by
  unfold State.closing accountCommit
  split <;> rfl

theorem closing_pendingPlan (s : State) (p : Plan) (n : Half) : (s.closing p n).pendingPlan = s.pendingPlan := by
  rw [closing_only]
  rfl

theorem closing_wft (s : State) (p : Plan) (n : Half) :
    (s.closing p n).wft.window = none ∧ (s.closing p n).wft.report = none ∧
      (s.closing p n).wft.verdict = some ⟨n, .commit, s.pendingFeeder, s.wft.capture, s.wft.reportFor n⟩ ∧
      ∀ f, p.feeder = some f → (s.closing p n).wft.feeders.get f = { s.wft.feeders.get f with failures := 0 } := by
  unfold State.closing accountCommit
  cases hf : p.feeder with
  | none => exact ⟨rfl, rfl, rfl, nofun⟩
  | some i =>
    refine ⟨rfl, rfl, rfl, fun f hk => ?_⟩
    cases hk
    exact get_upd ..

theorem commit_of_pending {s : State} {p : Plan} (h : s.pendingPlan = some p) : commit s = commitPlan p s := by
  rw [commit, h]

theorem commitVerdict_eq {s : State} {p : Plan} (hp : s.pendingPlan = some p) (n : Half) : commitVerdict n s =
    triggerWhen ((s.chu.hitsOn p).any fun k => (s.chu.comps.get k).stop) .markStop
      (noticed (s.chu.hitsOn p) (s.appliedAt p).isSome (s.committing p n)) := by
  have hf : s.pendingFeeder = p.feeder := by rw [State.pendingFeeder, hp]; rfl
  have hc : commitVerdict n s = commitPlan p (s.closing p n) := by
    rw [commitVerdict, hf]
    exact commit_of_pending ((closing_pendingPlan s p n).trans hp)
  have hstop : ∀ k, ((s.committing p n).chu.comps.get k).stop = (s.chu.comps.get k).stop := fun k => by
    unfold State.committing
    rw [show ({ commitCore p (s.closing p n) with grd := (commitCore p (s.closing p n)).grd.commit } : State).chu =
      (commitCore p (s.closing p n)).chu from rfl, chu_commitCore]
    exact (congrArg Comparator.stop (get_countHits ..)).trans (by rw [closing_only])
  rw [hc, commitPlan_eq, show (s.closing p n).chu = s.chu by rw [closing_only],
    show (s.closing p n).appliedAt p = s.appliedAt p by rw [closing_only]; rfl]
  refine (commitNotices_eq ..).trans ?_
  exact congrArg (fun f => triggerWhen ((s.chu.hitsOn p).any f) .markStop _) (funext hstop)

theorem commit_run (g : Grd) : g.commit.run = (if g.autoClear = 0 then g.run
    else if g.autoClear.toNat ≤ (if g.run < 65535 then g.run + 1 else g.run) then 0
    else if g.run < 65535 then g.run + 1 else g.run) := by
  simp only [Grd.commit, raiseTo]
  split
  · rfl
  · split <;> split <;> rfl

theorem commit_count (g : Grd) : g.commit.count =
    (if g.autoClear ≠ 0 ∧ g.autoClear.toNat ≤ (if g.run < 65535 then g.run + 1 else g.run) then 0 else g.count) := by
  by_cases h : g.autoClear = 0
  · simp [Grd.commit, h]
  · simp only [Grd.commit, raiseTo, h, if_false, ne_eq, not_false_eq_true, true_and]
    exact apply_ite Grd.count ..

theorem commit_settings (g : Grd) : g.commit.enabled = g.enabled ∧ g.commit.counts = g.counts ∧ g.commit.limit = g.limit := by
  unfold Grd.commit
  split
  · exact ⟨rfl, rfl, rfl⟩
  · dsimp only
    split <;> exact ⟨rfl, rfl, rfl⟩

theorem reportFor_of_no_failure {w : Wft} {n : Half} (h : ∀ x, w.report = some ⟨n, x⟩ → x = .inserted) :
    w.failureFor n = false ∧ w.reportFor n = if w.report = some ⟨n, .inserted⟩ then some .inserted else none := by
  unfold Wft.failureFor Wft.reportFor
  cases hr : w.report with
  | none => exact ⟨rfl, rfl⟩
  | some r =>
    obtain ⟨k, x⟩ := r
    by_cases hk : k = n
    · subst hk
      cases h x hr
      simp [Insertion.failure]
    · simp [hk]

/-- What a commit is said to leave, of which a TAKE or a presentation that follows it takes nothing back. -/
structure State.CommitKept (t v : State) : Prop where
  wft : v.wft.verdict = t.wft.verdict ∧ v.wft.window = t.wft.window ∧ v.wft.report = t.wft.report ∧
    v.wft.feeders = t.wft.feeders
  seq : v.seq.history = t.seq.history ∧ v.seq.woven = t.seq.woven ∧ v.seq.serial = t.seq.serial ∧
    v.seq.cursor = t.seq.cursor
  chu : v.chu = t.chu
  notices : ∀ n, n ∈ t.plk.notices → n ∈ v.plk.notices

theorem Kept.commitKept {t v : State} (k : Kept t v) (hw : v.wft.window = t.wft.window) (hr : v.wft.report = t.wft.report) :
    t.CommitKept v :=
  ⟨⟨k.verdict, hw, hr, k.feeders⟩, ⟨k.history, k.woven, k.serial, k.cursor⟩, k.chu, (k.links .p).notices⟩

theorem State.CommitKept.pickCommitted {s t v : State} {p : Plan} {n : Half} {angle : Nat} {stops : Bool}
    (k : t.CommitKept v) (hg : v.grd.run = t.grd.run ∧ v.grd.count = t.grd.count) (hs : stops = true → s.grd.isEnabled .markStop = true → v.seq.state = t.seq.state)
    (h : s.pickCommitted t p n angle stops) : s.pickCommitted v p n angle stops := by
  obtain ⟨e, hits, applies, outcome, c1, c2, c3, c4, c5, c6, c7, c8, c9, c10, c11, c12, c13, c14, c15, c16, c17, c18, c19,
    c20, run, count, c21, c22, c23, c24⟩ := h
  obtain ⟨⟨w1, w2, w3, w4⟩, ⟨q1, q2, q3, q4⟩, hu, hn⟩ := k
  obtain ⟨g1, g2⟩ := hg
  refine ⟨e, hits, applies, outcome, c1, c2, c3, w1.trans c4, w2.trans c5, w3.trans c6, fun f hf => by rw [w4]; exact c7 f hf,
    q1.trans c8, q2.trans c9, c10, c11, c12, c13, c14, c15, q3.trans c16, by rw [hu]; exact c17, by rw [hu, q4]; exact c18,
    fun c r hq => ?_, fun hh => hn _ (c20 hh), run, count, c21, c22, by rw [g1, g2]; exact c23, fun a b => ?_⟩
  · obtain ⟨d1, d2, d3, d4, d5⟩ := c19 c r hq
    rw [hu, q4]
    exact ⟨d1, d2, d3, fun ha => (d4 ha).imp id fun x => x.imp id fun y => y.imp (hn _) id, d5⟩
  · rw [g1, g2, hs a b]
    exact c24 a b

section
variable {s : State} {p : Plan}

theorem committing_seq (n : Half) : (s.committing p n).seq = { s.seq.joined (s.entryAt p) with
    woven := s.seq.woven + 1, cursor := some (s.cursorAfter p), serial := (s.cursorAfter p).serial } := by
  refine (seq_commitCore p (s.closing p n)).trans ?_
  rw [closing_only]
  rfl

theorem committing_chu (n : Half) : (s.committing p n).chu =
    { s.chu.countHits (s.chu.hitsOn p) with queue := queueAfter s.chu.queue (s.headOutcome p) } := by
  refine (chu_commitCore p (s.closing p n)).trans ?_
  rw [closing_only]
  rfl

theorem committing_grd (n : Half) : (s.committing p n).grd = s.grd.commit := by
  refine congrArg Grd.commit ((grd_commitCore p (s.closing p n)).trans ?_)
  rw [closing_only]

theorem committing_wft (n : Half) : (s.committing p n).wft.window = none ∧ (s.committing p n).wft.report = none ∧
    (s.committing p n).wft.verdict = some ⟨n, .commit, s.pendingFeeder, s.wft.capture, s.wft.reportFor n⟩ ∧
    ∀ f, p.feeder = some f → (s.committing p n).wft.feeders.get f = { s.wft.feeders.get f with failures := 0 } := by
  obtain ⟨g, hg⟩ := wft_commitCore p (s.closing p n)
  have hw : (s.committing p n).wft = { (s.closing p n).wft with groups := g } := hg
  rw [hw]
  exact closing_wft s p n

/-- R153, R154: what the commit makes of the head of the queue. -/
theorem head_committed (n : Half) : (s.chu.queue = [] → (s.entryAt p).counted = none ∧ (s.entryAt p).applied = none ∧
      (s.committing p n).chu.queue = [] ∧ (s.committing p n).seq.cursor = some (s.advance p.cursor).1) ∧
    ∀ c r, s.chu.queue = c :: r →
      ((∃ m, c.condition = .atCount m) → (s.entryAt p).counted = some c.id) ∧
      ((∀ m, c.condition ≠ .atCount m) → (s.entryAt p).counted = none) ∧
      ((s.headOutcome p).applies = true → (s.entryAt p).applied = some ⟨c.id, c.slot, c.card, c.condition, c.phaseReset⟩ ∧
        (s.committing p n).chu.queue = r ∧ s.appliedAt p = some c.counted ∧
        (s.committing p n).seq.cursor = some (s.target c.counted p.cursor)) ∧
      ((s.headOutcome p).applies = false → (s.entryAt p).applied = none ∧
        (s.committing p n).seq.cursor = some (s.advance p.cursor).1 ∧
        (s.committing p n).chu.queue = c.counted :: r) := by
  rw [committing_chu, committing_seq]
  refine ⟨fun hq => ?_, fun c r hq => ⟨fun ⟨m, hm⟩ => ?_, fun hm => ?_, fun ha => ?_, fun ha => ?_⟩⟩
  · simp [State.entryAt, entryOf, State.cursorAfter, State.appliedAt, State.headOutcome, headAt, hq, queueAfter]
  · simp [State.entryAt, entryOf, State.headOutcome, headAt, hq, Change.isCount, hm]
  · have hc : c.isCount = false := by
      cases hk : c.condition with
      | atCount m => exact absurd hk (hm m)
      | nextPick | atRepeatEnd | atMark => simp [Change.isCount, hk]
    simp [State.entryAt, entryOf, State.headOutcome, headAt, hq, hc]
  · have happ : s.appliedAt p = some c.counted := by
      rw [State.appliedAt, if_pos ha]
      simp [State.headOutcome, headAt, hq]
    refine ⟨?_, ?_, happ, ?_⟩
    · simp only [State.entryAt, entryOf, happ, Option.map_some, record_counted]
    · have hh : (s.headOutcome p).head = some c.counted := by simp [State.headOutcome, headAt, hq]
      simp only [queueAfter, hh, ha, if_true, hq, List.tail_cons]
    · simp only [State.cursorAfter, happ]
  · have happ : s.appliedAt p = none := by rw [State.appliedAt, ha]; rfl
    have hh : (s.headOutcome p).head = some c.counted := by simp [State.headOutcome, headAt, hq]
    refine ⟨?_, ?_, ?_⟩
    · simp only [State.entryAt, entryOf, happ, Option.map_none]
    · simp only [State.cursorAfter, happ]
    · simp only [queueAfter, hh, ha, hq, List.tail_cons]
      rfl

end

/-! ### What a commit is said to do -/

/-- R151: a comparator with STOP hits at the commit of the pick of plan `p`. -/
def State.stopsAt (s : State) (p : Plan) : Bool := (s.chu.hitsOn p).any fun k => (s.chu.comps.get k).stop

theorem triggerWhen_plk (b : Bool) (x : Trigger) {n : NoticeKind} {s : State} (h : n ∈ s.plk.notices) :
    n ∈ (triggerWhen b x s).plk.notices := ((kept_triggerWhen b x s).links .p).notices n h

/-- R168, R164: the counters of GRD after a commit, with MARK-STOP or without. -/
theorem grd_marked {s u : State} (hu : u.grd = s.grd.commit) (hg : u.seq.state.guarded) (stops : Bool) :
    (stops = false ∨ s.grd.isEnabled .markStop = false →
      (triggerWhen stops .markStop u).grd.run = s.grd.commit.run ∧
      (triggerWhen stops .markStop u).grd.count = s.grd.commit.count) ∧
    (stops = true → s.grd.isEnabled .markStop = true → (triggerWhen stops .markStop u).grd.run = 0 ∧
      (triggerWhen stops .markStop u).grd.count =
        (if s.grd.counts.get Trigger.markStop.idx = true ∧ (s.grd.limit = 0 ∨ s.grd.commit.count < s.grd.limit) then
          (if s.grd.commit.count < 15 then s.grd.commit.count + 1 else s.grd.commit.count) else s.grd.commit.count) ∧
      (triggerWhen stops .markStop u).seq.state =
        (if s.grd.counts.get Trigger.markStop.idx = true ∧ 0 < s.grd.limit ∧ s.grd.limit ≤ s.grd.commit.count then .halted
          else .guard)) := by
  obtain ⟨he, hc, hl⟩ := commit_settings s.grd
  have hen : u.grd.isEnabled .markStop = s.grd.isEnabled .markStop := by rw [hu, Grd.isEnabled, he, Grd.isEnabled]
  refine ⟨fun h => ?_, fun h h' => ?_⟩
  · rcases h with h | h
    · subst h
      exact ⟨congrArg Grd.run hu, congrArg Grd.count hu⟩
    · cases stops
      · exact ⟨congrArg Grd.run hu, congrArg Grd.count hu⟩
      · rw [triggerWhen, if_pos rfl, trigger_disabled (SeqState.loaded_of_guarded hg) (hen.trans h)]
        show u.grd.run = s.grd.commit.run ∧ u.grd.count = s.grd.commit.count
        rw [hu]
        exact ⟨rfl, rfl⟩
  · subst h
    rw [triggerWhen, if_pos rfl, trigger_enters hg (hen.trans h'), guardEntry_state, guardEntry_grd]
    have hcount : (countTrigger .markStop u).grd.countAfter .markStop = u.grd.countAfter .markStop := rfl
    refine ⟨rfl, ?_, ?_⟩
    · rw [hcount, countAfter_eq, hu, hc, hl]
    · rw [countTrigger, hu, ← hc, ← hl]

/-- R88, R128: a COMMIT verdict on the pending pick. -/
theorem pickCommitted_commitVerdict {s : State} {p : Plan} {n : Half} {angle : Nat} (hg : s.seq.state.guarded)
    (hp : s.pendingPlan = some p) (hc : s.wft.capture = some angle)
    (hr : ∀ x, s.wft.report = some ⟨n, x⟩ → x = .inserted) :
    s.pickCommitted (commitVerdict n s) p n angle (s.stopsAt p) := by
  obtain ⟨hwin, hrep, hver, hfee⟩ := committing_wft (s := s) (p := p) n
  obtain ⟨hempty, hhead⟩ := head_committed (s := s) (p := p) n
  have hf : s.pendingFeeder = p.feeder := by rw [State.pendingFeeder, hp]; rfl
  rw [hf, hc, (reportFor_of_no_failure hr).2] at hver
  obtain ⟨u, hu⟩ : ∃ u, u = noticed (s.chu.hitsOn p) (s.appliedAt p).isSome (s.committing p n) := ⟨_, rfl⟩
  have ho : u = { s.committing p n with plk := u.plk } := by
    rw [hu]
    exact noticed_only ..
  have hgrd : u.grd = s.grd.commit := by
    rw [ho]
    exact committing_grd n
  have hstate : u.seq.state = s.seq.state := by
    have hq : (s.committing p n).seq.state = s.seq.state := by
      rw [committing_seq]
      rfl
    rw [ho]
    exact hq
  obtain ⟨hrun, hstop⟩ := grd_marked hgrd (by rw [hstate]; exact hg) (s.stopsAt p)
  have hwin' : u.wft.window = none ∧ u.wft.report = none := by
    rw [ho]
    exact ⟨hwin, hrep⟩
  have hw := triggerWhen_window (s.stopsAt p) (x := .markStop) hwin'.1 hwin'.2
  have hk : (s.committing p n).CommitKept (triggerWhen (s.stopsAt p) .markStop u) := by
    refine Kept.commitKept ?_ (hw.1.trans hwin.symm) (hw.2.trans hrep.symm)
    rw [hu]
    exact (kept_noticed ..).trans (kept_triggerWhen ..)
  rw [commitVerdict_eq hp n, ← hu]
  show s.pickCommitted (triggerWhen (s.stopsAt p) .markStop u) p n angle (s.stopsAt p)
  have hplk : ∀ x, x ∈ u.plk.notices → x ∈ (triggerWhen (s.stopsAt p) .markStop u).plk.notices := fun x => triggerWhen_plk _ _
  obtain ⟨t, ht⟩ : ∃ t, t = triggerWhen (s.stopsAt p) .markStop u := ⟨_, rfl⟩
  rw [← ht] at hrun hstop hk hplk ⊢
  obtain ⟨⟨w1, w2, w3, w4⟩, ⟨q1, q2, q3, q4⟩, hchu, hnot⟩ := hk
  have hcomps : ∀ q : List Change, ({ s.chu.countHits (s.chu.hitsOn p) with queue := q } : Chu).comps =
    (s.chu.countHits (s.chu.hitsOn p)).comps := fun q => rfl
  refine ⟨s.entryAt p, s.chu.hitsOn p, (s.headOutcome p).applies, _, fun k => ?_, ?_, rfl, w1.trans hver, w2.trans hwin,
    w3.trans hrep, fun f hk => by rw [w4]; exact hfee f hk, ?_, ?_, rfl, rfl, rfl, rfl, rfl, rfl, ?_, fun k => ?_,
    fun hq => ?_, fun c r hq => ?_, fun hh => ?_, _, _, rfl, rfl, ?_, ?_⟩
  · exact (mem_hitsOn_iff ..).trans (and_congr_right fun _ => test_iff ..)
  · exact List.any_eq_true
  · rw [q1, committing_seq]
    exact congrArg (fun k => (s.seq.history ++ [s.entryAt p]).drop (k - 64)) (by simp)
  · rw [q2, committing_seq]
  · rw [q3, committing_seq]
    exact cursorAfter_serial s p
  · rw [hchu, committing_chu, hcomps]
    exact get_countHits ..
  · obtain ⟨h1, h2, h3, h4⟩ := hempty hq
    exact ⟨h1, h2, by rw [hchu]; exact h3, q4.trans h4⟩
  · obtain ⟨h1, h2, h3, h4⟩ := hhead c r hq
    refine ⟨?_, h1, h2, fun ha => ?_, fun ha => ?_⟩
    · rw [← applies_iff, State.headOutcome, hq]
      rfl
    · obtain ⟨a1, a2, a3, a4⟩ := h3 ha
      obtain ⟨m, hm⟩ := counted_only c
      refine ⟨a1, by rw [hchu]; exact a2, hplk _ ?_, s.target c p.cursor, q4.trans ?_, rfl, rfl, rfl, rfl, rfl, fun d hd => ?_⟩
      · rw [hu, a3]
        exact changeApplied_noticed ..
      · rw [a4, hm]
        rfl
      · simp only [State.target, hd]
    · obtain ⟨a1, a2, a3⟩ := h4 ha
      refine ⟨a1, q4.trans a2, fun hm => ?_, fun m x hm hx => ?_⟩
      · rw [hchu, a3, counted_of_not_isCount hm]
      · rw [hchu, a3, counted_of_isCount hm hx]
  · refine hplk _ ?_
    rw [hu]
    refine markHit_noticed _ (hh.imp fun k => And.imp_right fun hn => ?_)
    rw [committing_chu, hcomps, get_countHits]
    exact hn
  · rw [← commit_run, ← commit_count]
    exact hrun
  · rw [← commit_count]
    exact hstop

end Sys2Proof.Machine
end

section
/-! PROOFS. The steps of the shaft that raise schedule events (R3, R8, R9, R66, R67, R86, R88, R93, R108), and the commit at
A_close. -/

namespace Sys2Proof.Machine

/-! ### The forward step of a MOVING shaft -/

theorem crosses_forward_iff (s : State) (encz : Bool) : s.ang.crosses .forward encz = true ↔ s.crossesForward .forward encz := by
  simp [Ang.crosses]

/-- R13: the stall watch and its timer at a step. -/
theorem moved_eq (a : Ang) (d : Dir) (encz : Bool) (n : Int) : a.moved d encz n = { a with
    dir := d
    indexLevel := encz
    rest := if decide (a.rest = .moving) || a.startsMotion n then .moving else .atRest
    settleTimer := if decide (a.rest = .moving) || a.startsMotion n then some (10 * a.sched.settle) else a.settleTimer
    reverseTravel := travelAfter d a.reverseTravel
    stallWatch := if a.stallWatch = .off then .off else .armed
    stallTimer := if a.stallWatch = .off then a.stallTimer else some (10 * a.sched.stall) } := by
  obtain ⟨count, index, level, dir, rest, restAngle, travel, settle, watch, stall, sched, armed, total⟩ := a
  cases watch <;> rfl

theorem moved_of_moving {s : State} (h : s.ang.rest = .moving) (encz : Bool) (n k : Int) :
    ({ s with ang := { s.ang.moved .forward encz n with count := k } } : State) = s.stepped k encz := by
  have hm : (decide (s.ang.rest = .moving) || s.ang.startsMotion n) = true := by rw [h]; rfl
  rw [moved_eq, hm, if_pos rfl, if_pos rfl, ← h]
  rfl

/-- R10, R11: a forward step of a MOVING shaft brings nothing whose place is free. -/
theorem actions_of_moving {a : Ang} (h : a.rest = .moving) (encz : Bool) (k : Nat) :
    a.actions .forward encz k = (a.ordered .forward encz, k) := by
  have hm : ∀ n, a.startsMotion n = false := fun n => by simp [Ang.startsMotion, h]
  have hr : a.reachesReverse .forward = false := rfl
  simp only [Ang.actions, hm, hr, placeFreely]
  rfl

/-- R9: the events of the angles `l`, one after another, each at its block. -/
def fired (l : List SchedAngle) (s : State) : State := l.foldl (fun u a => scheduleEvent a (u.disarmed a)) s

theorem foldl_fire (l : List SchedAngle) (s : State) : (l.map ShaftAction.fire).foldl (fun s x => x.take s) s = fired l s := by
  rw [List.foldl_map]
  rfl

theorem armedWhere_eq (s : State) (encz : Bool) (f : Int → Bool) (hi : s.ang.index = .indexed)
    (hf : ∀ x, f x = true ↔ if s.crossesForward .forward encz then s.ang.count < x else x = s.ang.count + 1) :
    s.ang.armedWhere f = SchedAngle.all.filter fun a => decide (s.stepFires .forward encz a) := by
  refine List.filter_congr fun a _ => ?_
  rw [Bool.eq_iff_iff, decide_eq_true_iff, Bool.and_eq_true, decide_eq_true_iff, hf]
  exact ⟨fun ⟨h, k⟩ => ⟨rfl, hi, h, k⟩, fun ⟨_, _, h, k⟩ => ⟨h, k⟩⟩

/-- R8: an ordinary forward step in range fires the armed angles on the count. -/
theorem exec_forwardStep {s : State} {encz : Bool} (hi : s.ang.index = .indexed) (hr : s.ang.rest = .moving)
    (hc : s.ang.count ≤ 720) (hx : ¬s.crossesForward .forward encz) : exec (.encoderStep .forward encz) s = .next
      (fired (SchedAngle.all.filter fun a => decide (s.stepFires .forward encz a)) (s.stepped (s.ang.count + 1) encz)) := by
  have hno : s.ang.crosses .forward encz = false := Bool.eq_false_iff.2 (mt (crosses_forward_iff s encz).1 hx)
  have hord : s.ang.ordered .forward encz = .place (s.ang.count + 1) .indexed s.ang.armed ::
      (SchedAngle.all.filter fun a => decide (s.stepFires .forward encz a)).map .fire := by
    have hn : ¬721 < s.ang.count + 1 := by omega
    rw [← armedWhere_eq s encz (fun x => decide (x = s.ang.count + 1)) hi fun x => by rw [if_neg hx, decide_eq_true_iff]]
    simp only [Ang.ordered, hno, Ang.forwardStep, hi, reduceCtorEq, if_false, hn]
  refine congrArg Host.Outcome.next ?_
  simp only [actions_of_moving hr, hord, List.foldl_cons, foldl_fire]
  refine congrArg (fired _) ?_
  refine Eq.trans ?_ (moved_of_moving hr encz (countAfter s.ang.count (s.ang.ordered .forward encz)) (s.ang.count + 1))
  rw [← hord]
  unfold ShaftAction.take Ang.moved Ang.stallStep
  dsimp only
  cases s.ang.stallWatch <;> simp only [hi]

/-! ### What an event can do to the shaft and to the state of SEQ -/

/-- Between `s` and `t` the tracker, the sequencer state, the grant and coasting have stayed, or guard has been entered
(R164, R139). -/
def State.Shaken (s t : State) : Prop :=
  (t.ang = s.ang ∧ t.seq.state = s.seq.state ∧ t.seq.grant = s.seq.grant ∧ t.seq.coasting = s.seq.coasting) ∨
    (s.seq.state.guarded ∧ (t.seq.state = .guard ∨ t.seq.state = .halted) ∧ t.seq.coasting = true ∧
      t.seq.grant = .none ∧ t.ang = (stallOff s).ang)

theorem shaken_of_kept {s t : State} (ha : t.ang = s.ang) (hq : t.seq.state = s.seq.state) (hg : t.seq.grant = s.seq.grant)
    (hc : t.seq.coasting = s.seq.coasting) : s.Shaken t := .inl ⟨ha, hq, hg, hc⟩

theorem shaken_of_units {s t : State} (ha : t.ang = s.ang) (hq : t.seq = s.seq) : s.Shaken t :=
  .inl ⟨ha, by rw [hq], by rw [hq], by rw [hq]⟩

theorem State.Shaken.refl (s : State) : s.Shaken s := .inl ⟨rfl, rfl, rfl, rfl⟩

theorem State.Shaken.trans {s t u : State} (h : s.Shaken t) (k : t.Shaken u) : s.Shaken u := by
  rcases h with ⟨ha, hq, hg, hc⟩ | ⟨hs, hq, hc, hg, ha⟩
  · rcases k with ⟨ka, kq, kg, kc⟩ | ⟨ks, kq, kc, kg, ka⟩
    · exact .inl ⟨ka.trans ha, kq.trans hq, kg.trans hg, kc.trans hc⟩
    · exact .inr ⟨by rw [← hq]; exact ks, kq, kc, kg, by rw [ka, stallOff, ha]; rfl⟩
  · rcases k with ⟨ka, kq, kg, kc⟩ | ⟨ks, -⟩
    · exact .inr ⟨hs, by rw [kq]; exact hq, kc.trans hc, kg.trans hg, ka.trans ha⟩
    · rcases hq with hq | hq <;> rw [hq] at ks <;> exact absurd ks (by decide)

theorem State.Shaken.after {s t u : State} (h : t.Shaken u) (ha : t.ang = s.ang) (hq : t.seq.state = s.seq.state)
    (hg : t.seq.grant = s.seq.grant) (hc : t.seq.coasting = s.seq.coasting) : s.Shaken u := .trans (.inl ⟨ha, hq, hg, hc⟩) h

theorem shaken_ite {s t u : State} {c : Prop} [Decidable c] (h : s.Shaken t) (k : s.Shaken u) : s.Shaken (if c then t else u) := by
  split
  · exact h
  · exact k

theorem shaken_trigger (x : Trigger) (s : State) : s.Shaken (trigger x s) := by
  rcases trigger_cases x s with ⟨_, e⟩ | ⟨_, _, e⟩ | ⟨_, _, e⟩ | ⟨hg, _, e⟩ <;> rw [e]
  · exact .refl s
  · exact .inl ⟨rfl, rfl, rfl, rfl⟩
  · exact .inl ⟨rfl, rfl, rfl, rfl⟩
  · refine .inr ⟨hg, ?_, by rw [guardEntry_seq], by rw [guardEntry_seq], by rw [guardEntry_ang]; rfl⟩
    rw [guardEntry_state]
    split
    · exact .inr rfl
    · exact .inl rfl

theorem shaken_triggerWhen (b : Bool) (x : Trigger) (s : State) : s.Shaken (triggerWhen b x s) := by
  cases b
  · exact .refl s
  · exact shaken_trigger x s

theorem shaken_raise (l : LinkId) (n : NoticeKind) (s : State) : s.Shaken (raise l n s) :=
  shaken_of_units (by simp) (by simp)

theorem shaken_discardStaging (s : State) : s.Shaken (discardStaging s) := shaken_of_units (by simp) (by simp)

theorem shaken_unsanctioned (s : State) : s.Shaken (unsanctioned s) := by
  unfold unsanctioned
  exact shaken_ite (shaken_raise ..) ((shaken_raise ..).trans (shaken_trigger ..))

/-! Planning and accounting. -/

theorem shaken_replanned (b p q : Bool) (s : State) : s.Shaken (replanned b p q s) := by
  unfold replanned
  exact (shaken_ite ((shaken_raise .w .planChanged s).trans (shaken_raise ..)) (shaken_raise ..)).trans (shaken_triggerWhen ..)

theorem shaken_replanPending (b : Bool) (s : State) : s.Shaken (replanPending b s) := by
  unfold replanPending
  split
  · exact .refl s
  · exact .inl ⟨rfl, rfl, rfl, rfl⟩

theorem shaken_replanStaged (b : Bool) (s : State) : s.Shaken (replanStaged b s) := by
  unfold replanStaged
  split
  · exact .refl s
  · exact .inl ⟨rfl, rfl, rfl, rfl⟩

theorem shaken_replan (p q : Bool) (s : State) : s.Shaken (replan p q s) := by
  have hp := shaken_ite (c := p = true) (shaken_replanPending true s) (.refl s)
  exact shaken_ite ((shaken_ite (hp.trans (shaken_replanStaged ..)) hp).trans (shaken_replanned ..)) (.refl s)

theorem shaken_accountFailure (f : Option (Fin 8)) (s : State) : s.Shaken (accountFailure f s) := by
  cases f with
  | none => exact .refl s
  | some i =>
    refine shaken_ite ?_ (.inl ⟨rfl, rfl, rfl, rfl⟩)
    exact ((shaken_raise ..).trans ((shaken_raise ..).trans (shaken_replan ..))).after rfl rfl rfl rfl

theorem shaken_failVerdict (n : Half) (v : Verdict) (x : Trigger) (s : State) : s.Shaken (failVerdict n v x s) :=
  (shaken_of_units (t := closeWindow n v s) rfl rfl).trans ((shaken_trigger ..).trans (shaken_accountFailure ..))

/-! The commit. -/

theorem shaken_moveCursor (c : Cursor) (s : State) : s.Shaken (moveCursor c s) := by
  refine shaken_of_kept ?_ (by rw [moveCursor_seq]) (by rw [moveCursor_seq]) (by rw [moveCursor_seq])
  have hp : (placeCursor s.seq.state c s).ang = s.ang := by rw [(recounted_placeCursor s.seq.state c s).only]
  unfold moveCursor
  dsimp only
  split
  · exact hp
  · rw [discardStaging_ang]
    exact hp

theorem shaken_of_recounted {s t : State} (h : s.Recounted t) : s.Shaken t :=
  shaken_of_units (by rw [h.only]) h.seq_eq

theorem shaken_recorded (p : Plan) (s : State) : s.Shaken (recorded p s) := by
  refine shaken_of_kept ?_ (by rw [recorded_seq]; rfl) (by rw [recorded_seq]; rfl) (by rw [recorded_seq]; rfl)
  show (appendEntry (s.entryAt p) s).ang = s.ang
  rw [(recounted_appendEntry (s.entryAt p) s).only]

theorem shaken_commit (s : State) : s.Shaken (commit s) := by
  unfold commit
  split
  next p _ =>
    have hcore := ((shaken_recorded p s).trans (shaken_moveCursor _ _)).trans (shaken_of_recounted (recounted_commitCore p s))
    rw [commitPlan_eq, commitNotices_eq, noticed_only]
    exact hcore.trans ((shaken_triggerWhen ..).after rfl rfl rfl rfl)
  · exact .refl s

theorem shaken_commitVerdict (n : Half) (s : State) : s.Shaken (commitVerdict n s) := by
  refine .trans (shaken_of_units ?_ ?_) (shaken_commit _) <;> unfold accountCommit <;> split <;> rfl

theorem shaken_verdictAtClose (n : Half) (s : State) : s.Shaken (verdictAtClose n s) :=
  shaken_ite (shaken_failVerdict ..) (shaken_ite (shaken_failVerdict ..) (shaken_commitVerdict ..))

/-! The transfer and the job. -/

theorem shaken_transferResults (n : Half) (echo : List ModuleEcho) (s : State) : s.Shaken (transferResults n echo s) := by
  rw [transferResults_eq]
  have h1 : s.Shaken (triggerWhen (s.hcc.budgetSpent (s.mismatched echo)) .echoBudget (s.measured n echo)) :=
    (shaken_triggerWhen ..).after rfl rfl rfl rfl
  exact h1.trans ((shaken_triggerWhen ..).after rfl rfl rfl rfl)

theorem shaken_reportTransfer (n : Half) (s : State) : s.Shaken (reportTransfer n s) := by
  obtain ⟨p, x, k, e⟩ := reportTransfer_only n s
  rw [e]
  exact .inl ⟨rfl, rfl, rfl, rfl⟩

theorem shaken_startTransfer (s : State) : s.Shaken (startTransfer s) := by
  unfold startTransfer
  split
  · exact .refl s
  · have hs : s.Shaken (endRefresh s) := shaken_of_units (by simp) (by simp)
    refine shaken_ite (hs.trans (((shaken_transferResults ..).trans (shaken_reportTransfer ..)).after ?_ ?_ ?_ ?_))
      (hs.trans (shaken_of_kept ?_ ?_ ?_ ?_)) <;> rfl
  · exact .refl s
  · exact .refl s

theorem shaken_startJob (k : JobKind) (s : State) : s.Shaken (startJob k s) := by
  unfold startJob
  split
  · exact .refl s
  · exact ((shaken_triggerWhen ..).after rfl rfl rfl rfl)

theorem shaken_atLatch (s : State) : s.Shaken (atLatch s) := by
  unfold atLatch
  refine shaken_ite ?_ (.refl s)
  split
  · exact shaken_ite (.inl ⟨rfl, rfl, rfl, rfl⟩) (shaken_trigger ..)
  · exact shaken_trigger ..

theorem shaken_atOpen (s : State) : s.Shaken (atOpen s) := by
  have hw : ∀ w : Wft, s.Shaken { s with wft := w } := fun w => .inl ⟨rfl, rfl, rfl, rfl⟩
  unfold atOpen
  refine shaken_ite (shaken_ite ((hw _).trans (shaken_trigger ..)) ?_) (hw _)
  split
  · exact hw _
  · exact hw _

theorem shaken_atClose (s : State) : s.Shaken (atClose s) := by
  unfold atClose
  split
  · exact shaken_ite (shaken_verdictAtClose ..) (.refl s)
  · exact .refl s

theorem shaken_atPrep (s : State) : s.Shaken (atPrep s) :=
  shaken_ite ((shaken_discardStaging s).trans (shaken_startJob ..)) (.refl s)

theorem shaken_atXfer (s : State) : s.Shaken (atXfer s) := by
  unfold atXfer
  refine shaken_ite ?_ (.refl s)
  split
  · exact shaken_startTransfer s
  · exact shaken_trigger ..

theorem shaken_scheduleEvent (a : SchedAngle) (s : State) : s.Shaken (scheduleEvent a s) := by
  cases a
  · exact shaken_atLatch s
  · exact shaken_atOpen s
  · exact shaken_atClose s
  · exact shaken_atPrep s
  · exact shaken_atXfer s

/-! ### The step onto one angle, and the step over the mark -/

theorem State.Shaken.disarmed {s t : State} (h : s.Shaken t) (a : SchedAngle) : (s.disarmed a).Shaken (t.disarmed a) := by
  rcases h with ⟨ha, hq, hg, hc⟩ | ⟨hs, hq, hc, hg, ha⟩
  · exact .inl ⟨by simp only [State.disarmed, ha], hq, hg, hc⟩
  · exact .inr ⟨hs, hq, hc, hg, by simp only [State.disarmed, ha, stallOff]⟩

theorem shaken_foldl_disarmed (l : List SchedAngle) : ∀ {s t : State}, s.Shaken t →
    (l.foldl State.disarmed s).Shaken (l.foldl State.disarmed t) := by
  induction l with
  | nil => exact id
  | cons a l ih => exact fun h => ih (h.disarmed a)

/-- R8, R9: the events of a step leave the tracker as it is but for the angles fired, unless they enter guard. -/
theorem shaken_fired (l : List SchedAngle) : ∀ s : State, (l.foldl State.disarmed s).Shaken (fired l s) := by
  induction l with
  | nil => exact .refl
  | cons a l ih => exact fun s => (shaken_foldl_disarmed l (shaken_scheduleEvent a (s.disarmed a))).trans (ih _)

theorem foldl_disarmed (l : List SchedAngle) : ∀ s : State, l.foldl State.disarmed s =
    { s with ang := { s.ang with armed := s.ang.armed.filter fun x => decide (x ∉ l) } } := by
  induction l with
  | nil =>
    intro s
    have hf : (s.ang.armed.filter fun x => decide (x ∉ [])) = s.ang.armed :=
      List.filter_eq_self.2 fun x _ => decide_eq_true List.not_mem_nil
    rw [List.foldl_nil, hf]
  | cons a l ih =>
    intro s
    rw [List.foldl_cons, ih, State.disarmed]
    simp only [List.filter_filter]
    have hf : (s.ang.armed.filter fun x => decide (x ∉ l) && decide (x ≠ a)) =
        s.ang.armed.filter fun x => decide (x ∉ a :: l) :=
      List.filter_congr fun x _ => by simp [Bool.and_comm]
    rw [hf]

/-- R8: a step that fires the angle `a` alone. -/
theorem exec_stepsOnto {s : State} {a : SchedAngle} (h : s.stepsOnto a) :
    exec (.encoderStep .forward s.ang.indexLevel) s = .next (scheduleEvent a (s.steppedOnto a)) := by
  obtain ⟨hi, hr, ha, hn, hle, hu⟩ := h
  have hx : ¬s.crossesForward .forward s.ang.indexLevel := by
    rintro ⟨-, h0, h1⟩
    exact absurd (h0.symm.trans h1) (by decide)
  have hone : ∀ b, s.stepFires .forward s.ang.indexLevel b ↔ b = a := by
    intro b
    have hf : s.stepFires .forward s.ang.indexLevel b ↔ b ∈ s.ang.armed ∧ (s.ang.sched.angle b : Int) = s.ang.count + 1 := by
      unfold State.stepFires
      rw [if_neg hx]
      exact ⟨fun k => ⟨k.2.2.1, k.2.2.2⟩, fun k => ⟨rfl, hi, k.1, k.2⟩⟩
    rw [hf]
    refine ⟨fun ⟨hb, hk⟩ => Decidable.byContradiction fun hne => hu b hb hne ?_, fun hb => ?_⟩
    · omega
    · rw [hb]
      exact ⟨ha, hn.symm⟩
  have hfilter : (SchedAngle.all.filter fun b => decide (s.stepFires .forward s.ang.indexLevel b)) = [a] := by
    simp only [hone]
    cases a <;> rfl
  have hc : s.ang.count ≤ 720 := by omega
  rw [exec_forwardStep hi hr hc hx, hfilter]
  rfl

/-- R3: the step over the mark in tolerance fires the angles left behind before the count is set. -/
theorem exec_forwardCrossing {s : State} (hi : s.ang.index = .indexed) (hr : s.ang.rest = .moving) (h1 : 717 ≤ s.ang.count)
    (h2 : s.ang.count ≤ 721) (hx : s.crossesForward .forward true) (hq : ¬(s.seq.state = .finding ∧ s.seq.grant = .find))
    {u : State} (hu : u = fired (SchedAngle.all.filter fun a => decide (s.stepFires .forward true a)) (s.stepped s.ang.count true)) :
    exec (.encoderStep .forward true) s = .next
      { u with ang := { u.ang with count := 0, index := .indexed, armed := SchedAngle.all } } := by
  have hyes : s.ang.crosses .forward true = true := (crosses_forward_iff s true).2 hx
  have hoff : s.ang.offMark .forward = false := by
    have hn : ¬(s.ang.count < 717 ∨ 721 < s.ang.count) := by omega
    simp [Ang.offMark, hn]
  have hord : s.ang.ordered .forward true = (SchedAngle.all.filter fun a => decide (s.stepFires .forward true a)).map .fire ++
      [.place 0 .indexed SchedAngle.all, .crossing .forward] := by
    rw [← armedWhere_eq s true (fun x => decide (s.ang.count < x)) hi fun x => by rw [if_pos hx, decide_eq_true_iff]]
    simp only [Ang.ordered, hyes, Ang.forwardCrossing, hoff, hi, if_true]
    rfl
  have hquiet : ¬(u.seq.state = .finding ∧ u.seq.grant = .find) := by
    have hs := shaken_fired (SchedAngle.all.filter fun a => decide (s.stepFires .forward true a)) (s.stepped s.ang.count true)
    rw [← hu, foldl_disarmed] at hs
    rcases hs with ⟨-, h3, h4, -⟩ | ⟨-, h3 | h3, -⟩
    · rw [h3, h4]
      exact hq
    · rw [h3]
      exact fun k => absurd k.1 (by decide)
    · rw [h3]
      exact fun k => absurd k.1 (by decide)
  refine congrArg Host.Outcome.next ?_
  have hmoved : ({ s with ang := s.ang.moved .forward true (countAfter s.ang.count (s.ang.ordered .forward true)) } : State) =
      s.stepped s.ang.count true := by
    rw [← moved_of_moving hr true (countAfter s.ang.count (s.ang.ordered .forward true)) s.ang.count, moved_eq]
  simp only [actions_of_moving hr, hmoved]
  rw [hord, List.foldl_append, foldl_fire, ← hu]
  exact if_neg hquiet

end Sys2Proof.Machine
end

section
/-! PROOFS. The schedule events at their blocks (R66, R67, R86, R88, R108). -/

namespace Sys2Proof.Machine

/-! ### A_close -/

theorem atClose_open {s : State} {n : Half} (hq : s.seq.state = .running ∨ s.seq.state = .stopping)
    (hw : s.wft.window = some n) : atClose s = verdictAtClose n s := by
  rw [atClose, hw]
  exact if_pos hq

theorem atClose_idle {s : State} (h : s.wft.window = none ∨ ¬(s.seq.state = .running ∨ s.seq.state = .stopping)) :
    atClose s = s := by
  unfold atClose
  rcases h with h | h
  · rw [h]
  · split
    · exact if_neg h
    · rfl

theorem failureFor_iff (w : Wft) (n : Half) : w.failureFor n = true ↔ ∃ o, w.report = some ⟨n, o⟩ ∧ o ≠ .inserted := by
  unfold Wft.failureFor Wft.reportFor
  cases w.report with
  | none => simp
  | some r =>
    obtain ⟨k, x⟩ := r
    by_cases hk : k = n
    · subst hk
      cases x <;> simp [Insertion.failure]
    · simp [hk]

theorem failureFor_eq_false {w : Wft} {n : Half} (h : ∀ x, w.report = some ⟨n, x⟩ → x = .inserted) : w.failureFor n = false :=
  (reportFor_of_no_failure h).1

theorem reportFor_eq_some_iff (w : Wft) (n : Half) (y : Insertion) : w.reportFor n = some y ↔ w.report = some ⟨n, y⟩ := by
  unfold Wft.reportFor
  cases w.report with
  | none => simp
  | some r =>
    obtain ⟨k, x⟩ := r
    by_cases hk : k = n <;> simp [hk]

theorem verdictAtClose_commits {s : State} {n : Half} {angle : Nat} (hc : s.wft.capture = some angle)
    (hr : ∀ x, s.wft.report = some ⟨n, x⟩ → x = .inserted) : verdictAtClose n s = commitVerdict n s := by
  rw [verdictAtClose, failureFor_eq_false hr, if_neg Bool.false_ne_true, if_neg (by rw [hc]; nofun)]

theorem verdictAtRest_commits {s : State} {n : Half} {angle : Nat} (hc : s.wft.capture = some angle)
    (hr : ∀ x, s.wft.report = some ⟨n, x⟩ → x = .inserted) : verdictAtRest n s = commitVerdict n s := by
  rw [verdictAtRest, failureFor_eq_false hr, if_neg Bool.false_ne_true, if_neg (by rw [hc]; nofun)]

/-- R128, R151: a COMMIT verdict is a MARK-STOP, or none, after the commit. -/
theorem commitVerdict_marked {s : State} {p : Plan} (hp : s.pendingPlan = some p) (n : Half) : ∃ u : State,
    u = { s.committing p n with plk := u.plk } ∧ u.seq.state = s.seq.state ∧
      u.grd.isEnabled .markStop = s.grd.isEnabled .markStop ∧ commitVerdict n s = triggerWhen (s.stopsAt p) .markStop u := by
  have ho := noticed_only (s.chu.hitsOn p) (s.appliedAt p).isSome (s.committing p n)
  have hq : (s.committing p n).seq.state = s.seq.state := by
    rw [committing_seq]
    rfl
  have hg : (s.committing p n).grd.enabled = s.grd.enabled := by
    rw [committing_grd]
    exact (commit_settings s.grd).1
  refine ⟨_, ho, ?_, ?_, commitVerdict_eq hp n⟩
  · rw [ho]
    exact hq
  · rw [ho, Grd.isEnabled, hg, Grd.isEnabled]

/-- R128: the state of SEQ after a commit, by what MARK-STOP makes of it. -/
theorem commitVerdict_state {s : State} {p : Plan} {n : Half} (hg : s.seq.state.guarded) (hp : s.pendingPlan = some p) :
    (s.stopsAt p = false ∨ s.grd.isEnabled .markStop = false → (commitVerdict n s).seq.state = s.seq.state) ∧
    (s.stopsAt p = true → s.grd.isEnabled .markStop = true →
      (commitVerdict n s).seq.state = .guard ∨ (commitVerdict n s).seq.state = .halted) := by
  obtain ⟨u, -, hstate, hen, he⟩ := commitVerdict_marked hp n
  rw [he]
  refine ⟨fun h => ?_, fun h h' => ?_⟩
  · rcases h with h | h
    · rw [h]
      exact hstate
    · cases s.stopsAt p
      · exact hstate
      · rw [triggerWhen, if_pos rfl, trigger_disabled (by rw [hstate]; exact SeqState.loaded_of_guarded hg) (hen.trans h)]
        exact hstate
  · rw [h, triggerWhen, if_pos rfl]
    exact (heldBy_trigger_taken (by rw [hstate]; exact hg) (hen.trans h')).state

/-- Settles O49: the step raises A_close alone, which commits (`pickCommitted_commitVerdict`). -/
theorem closeCommitsPendingPick : Obligations.CloseCommitsPendingPick := by
  intro s p n angle hs hq hw hc hr hp
  have hg : s.seq.state.guarded := by rcases hq with h | h <;> rw [h] <;> decide
  have he : scheduleEvent .closing (s.steppedOnto .closing) = commitVerdict n (s.steppedOnto .closing) :=
    (atClose_open (s := s.steppedOnto .closing) hq hw).trans (verdictAtClose_commits (s := s.steppedOnto .closing) hc hr)
  obtain ⟨h1, h2⟩ := commitVerdict_state (s := s.steppedOnto .closing) (n := n) hg hp
  exact ⟨_, s.stopsAt p, (exec_stepsOnto hs).trans (congrArg _ he),
    pickCommitted_commitVerdict (s := s.steppedOnto .closing) hg hp hc hr, fun h => h1 (.inl h), h2⟩

/-! ### A_latch, A_open, A_prep and A_xfer -/

theorem stagedBelongs_complete {s : State} {p : Plan} {image : List Bool} (hx : s.xpe.staging = .complete p image) :
    s.stagedBelongs = decide (s.seq.cursor = some p.cursor) := by
  rw [State.stagedBelongs, hx]
  rfl

theorem atLatch_takes {s : State} {p : Plan} {image : List Bool} (hq : s.seq.state = .running)
    (hx : s.xpe.staging = .complete p image) (hc : s.seq.cursor = some p.cursor) (ht : s.hcc.transfer = .shifted p.cursor.serial) :
    atLatch s = orderTake p.cursor.serial s := by
  have hb : s.stagedBelongs = true := (stagedBelongs_complete hx).trans (decide_eq_true hc)
  simp only [atLatch, hq, hx, hb, if_true, Plan.serial, ht]

theorem atLatch_late {s : State} (hq : s.seq.state = .running) (h : ∀ p image, s.xpe.staging = .complete p image →
    s.seq.cursor = some p.cursor → s.hcc.transfer ≠ .shifted p.cursor.serial) : atLatch s = trigger .lateTransfer s := by
  refine (if_pos hq).trans ?_
  split
  next p image hx hb =>
    rw [stagedBelongs_complete hx, decide_eq_true_iff] at hb
    exact if_neg (h p image hx hb)
  · rfl

theorem atXfer_transfers {s : State} {p : Plan} {image : List Bool} (hq : s.seq.state = .running)
    (hx : s.xpe.staging = .complete p image) (hc : s.seq.cursor = some p.cursor) : atXfer s = startTransfer s := by
  have hb : s.stagedBelongs = true := (stagedBelongs_complete hx).trans (decide_eq_true hc)
  simp only [atXfer, hq, hx, hb, if_true]

theorem atXfer_late {s : State} (hq : s.seq.state = .running)
    (h : ∀ p image, s.xpe.staging = .complete p image → s.seq.cursor ≠ some p.cursor) : atXfer s = trigger .latePick s := by
  refine (if_pos hq).trans ?_
  split
  next p image hx hb =>
    rw [stagedBelongs_complete hx, decide_eq_true_iff] at hb
    exact absurd hb (h p image hx)
  · rfl

theorem atOpen_idle {s : State} (h : ¬(s.seq.state = .running ∨ s.seq.state = .stopping)) :
    atOpen s = { s with wft := { s.wft with window := none } } := if_neg h

theorem atOpen_taking {s : State} (h : s.seq.state = .running ∨ s.seq.state = .stopping) (ht : s.takes) :
    atOpen s = trigger .lateTransfer { s with wft := { s.wft with window := none } } :=
  (if_pos h).trans (if_pos ((isTaking_iff_takes s).2 ht))

theorem atOpen_pending {s : State} {p : Plan} (h : s.seq.state = .running ∨ s.seq.state = .stopping) (ht : ¬s.takes)
    (hp : s.pendingPlan = some p) :
    atOpen s = { s with wft := { s.wft with window := some p.cursor.serial, capture := none, report := none } } := by
  refine (if_pos h).trans ((if_neg (mt (isTaking_iff_takes s).1 ht)).trans ?_)
  rw [hp]
  rfl

theorem atOpen_unlatched {s : State} (h : s.seq.state = .running ∨ s.seq.state = .stopping) (ht : ¬s.takes)
    (hp : s.pendingPlan = none) : atOpen s = { s with wft := { s.wft with window := none } } := by
  refine (if_pos h).trans ((if_neg (mt (isTaking_iff_takes s).1 ht)).trans ?_)
  rw [hp]

theorem jobBelongs_iff (s : State) : s.jobBelongs = true ↔ ∃ j, s.xpe.job = some j ∧ s.seq.cursor = some j.snapshot := by
  unfold State.jobBelongs
  cases s.xpe.job <;> simp

theorem atPrep_idle {s : State} (h : s.seq.state ≠ .running ∨ s.stagedBelongs = true ∨
    ∃ j, s.xpe.job = some j ∧ s.seq.cursor = some j.snapshot) : atPrep s = s := by
  refine if_neg fun ⟨h1, h2, h3, _⟩ => ?_
  rcases h with h | h | h
  · exact h h1
  · exact absurd (h.symm.trans h2) (by decide)
  · exact absurd (((jobBelongs_iff s).2 h).symm.trans h3) (by decide)

/-- R66: A_prep on an empty staging buffer starts the job of the cursor pick. -/
theorem atPrep_starts {s : State} {c : Cursor} (hq : s.seq.state = .running) (ht : ¬s.takes) (hc : s.seq.cursor = some c)
    (hx : s.xpe = ⟨none, .empty⟩) : atPrep s =
      triggerWhen (s.wft.choose (s.cardOf c).weft).feeder.isNone .feederUnavailable { s with
        wft := (s.wft.choose (s.cardOf c).weft).wft
        fst := (claim .staged c.slot s).fst
        xpe := ⟨some ⟨.schedule, c, 128 * s.hcc.census⟩, .filling ⟨c, (s.wft.choose (s.cardOf c).weft).feeder,
          (s.wft.choose (s.cardOf c).weft).group, (s.cardOf c).mark, false, false⟩⟩ } := by
  have hb : s.stagedBelongs = false := by rw [State.stagedBelongs, hx]; rfl
  have hj : s.jobBelongs = false := by rw [State.jobBelongs, hx]
  have he : atPrep s = startJob .schedule s := by
    rw [atPrep, if_pos ⟨hq, hb, hj, (isTaking_eq_false_iff s).2 ht⟩, discardStaging_of_empty hx]
  rw [he, startJob, hc]
  have hr : decide (s.seq.state = .running) = true := decide_eq_true hq
  show triggerWhen (decide (s.seq.state = .running) && _) .feederUnavailable _ = _
  rw [hr, Bool.true_and]
  rfl

theorem atPrep_planned {s : State} {c : Cursor} (hq : s.seq.state = .running) (ht : ¬s.takes) (hc : s.seq.cursor = some c)
    (hx : s.xpe = ⟨none, .empty⟩) (hf : (s.wft.choose (s.cardOf c).weft).feeder ≠ none) : atPrep s = { s with
      wft := (s.wft.choose (s.cardOf c).weft).wft
      fst := (claim .staged c.slot s).fst
      xpe := ⟨some ⟨.schedule, c, 128 * s.hcc.census⟩, .filling ⟨c, (s.wft.choose (s.cardOf c).weft).feeder,
        (s.wft.choose (s.cardOf c).weft).group, (s.cardOf c).mark, false, false⟩⟩ } := by
  have hn : (s.wft.choose (s.cardOf c).weft).feeder.isNone = false := Option.isNone_eq_false_iff.2 (Option.isSome_iff_ne_none.2 hf)
  rw [atPrep_starts hq ht hc hx, hn]
  rfl

theorem atPrep_unavailable {s : State} {c : Cursor} (hq : s.seq.state = .running) (ht : ¬s.takes)
    (hc : s.seq.cursor = some c) (hx : s.xpe = ⟨none, .empty⟩) (hf : (s.wft.choose (s.cardOf c).weft).feeder = none) :
    atPrep s = trigger .feederUnavailable { s with
      wft := (s.wft.choose (s.cardOf c).weft).wft
      fst := (claim .staged c.slot s).fst
      xpe := ⟨some ⟨.schedule, c, 128 * s.hcc.census⟩, .filling ⟨c, none, (s.wft.choose (s.cardOf c).weft).group,
        (s.cardOf c).mark, false, false⟩⟩ } := by
  rw [atPrep_starts hq ht hc hx, hf]
  rfl

/-- Settles O51: a step fires its angles (`exec_forwardStep`, `exec_forwardCrossing`, `exec_stepsOnto`), each at its block. -/
theorem scheduleAnglesRaiseEvents : Obligations.ScheduleAnglesRaiseEvents := by
  intro s
  refine ⟨fun encz hi hr hc hx => exec_forwardStep hi hr hc hx,
    fun hi hr h1 h2 hx hq => ⟨_, rfl, exec_forwardCrossing hi hr h1 h2 hx hq rfl⟩, fun hs => ?_, fun hs => ?_, fun hs => ?_,
    fun hs => ?_, fun hs => ?_⟩ <;> rw [exec_stepsOnto hs]
  · refine ⟨fun n v x hq hw hv => ?_, fun h => congrArg _ (atClose_idle (s := s.steppedOnto .closing) h)⟩
    have he : atClose (s.steppedOnto .closing) = failVerdict n v x (s.steppedOnto .closing) := by
      rw [atClose_open (s := s.steppedOnto .closing) hq hw, verdictAtClose]
      rcases hv with ⟨rfl, rfl, ho⟩ | ⟨rfl, rfl, ho, hc⟩
      · exact if_pos ((failureFor_iff ..).2 ho)
      · rw [failureFor_eq_false (w := (s.steppedOnto .closing).wft) ho]
        exact if_pos hc
    refine ⟨_, _, s.wft.reportFor n, congrArg _ he, fun y => reportFor_eq_some_iff .., rfl, ?_⟩
    exact failureAccounted_accountFailure ..
  · exact ⟨fun p image hq hx hc ht => congrArg _ (atLatch_takes (s := s.steppedOnto .latch) hq hx hc ht),
      fun hq h => congrArg _ (atLatch_late (s := s.steppedOnto .latch) hq h), fun hq => congrArg _ (if_neg hq)⟩
  · exact ⟨fun hq => ⟨fun ht => congrArg _ (atOpen_taking (s := s.steppedOnto .opening) hq ht),
      fun p ht hp => congrArg _ (atOpen_pending (s := s.steppedOnto .opening) hq ht hp),
      fun ht hp => congrArg _ (atOpen_unlatched (s := s.steppedOnto .opening) hq ht hp)⟩,
      fun hq => congrArg _ (atOpen_idle (s := s.steppedOnto .opening) hq)⟩
  · refine ⟨fun c p hq ht hc hx hp hn => congrArg _ ?_, fun c p hq ht hc hx hp hn => congrArg _ ?_,
      fun h => congrArg _ (atPrep_idle (s := s.steppedOnto .prep) h)⟩
    · subst hp
      exact atPrep_planned (s := s.steppedOnto .prep) hq ht hc hx hn
    · subst hp
      exact atPrep_unavailable (s := s.steppedOnto .prep) hq ht hc hx hn
  · refine ⟨fun p image hq hx hc hn ht hr => congrArg _ ?_,
      fun hq h => congrArg _ (atXfer_late (s := s.steppedOnto .xfer) hq h), fun hq => congrArg _ (if_neg hq)⟩
    refine (atXfer_transfers (s := s.steppedOnto .xfer) hq hx hc).trans ?_
    exact startTransfer_eq (s := s.steppedOnto .xfer) hx hn ((isTaking_eq_false_iff _).2 ht) hr

end Sys2Proof.Machine
end

section
/-! PROOFS. Rest: the expiry of the settle timer (R10, R124, R132, R136, R170). -/

namespace Sys2Proof.Machine

/-! ### What SEQ makes of rest in STOPPING, once the window is closed (R132) -/

theorem leaveStopping_ready {u : State} (hq : u.seq.state = .stopping) (h : u.latchedBelongs = true ∧ u.xpe = ⟨none, .empty⟩) :
    leaveStopping u = enterReady u := (if_pos hq).trans (if_pos h)

theorem leaveStopping_presents {u : State} (hq : u.seq.state = .stopping)
    (h : ¬(u.latchedBelongs = true ∧ u.xpe = ⟨none, .empty⟩)) : leaveStopping u = enterPresenting u := (if_pos hq).trans (if_neg h)

theorem leaveStopping_of_ne {u : State} (hq : u.seq.state ≠ .stopping) : leaveStopping u = u := if_neg hq

theorem restStopping_closed {u : State} (hw : u.wft.window = none) : restStopping u = leaveStopping u := by
  rw [restStopping_eq, hw]

theorem restStopping_open {u : State} {n : Half} (hw : u.wft.window = some n) :
    restStopping u = leaveStopping (verdictAtRest n u) := by
  rw [restStopping_eq, hw]

theorem orderPresent_of_no_present {u : State} (hp : u.seq.present = none) (ht : ¬u.takes) : orderPresent u = presentCursor u := by
  rw [orderPresent_not_taking ((isTaking_eq_false_iff u).2 ht), endPresent, hp]

/-- R69: a complete staged pick of the cursor pick goes on to its transfer. -/
theorem enterPresenting_reuses {u : State} {p : Plan} {image : List Bool} (hp : u.seq.present = none)
    (hx : u.xpe.staging = .complete p image) (hc : u.seq.cursor = some p.cursor) (ht : ¬u.takes)
    (hr : u.hcc.transfer ≠ .refreshing) (hn : u.hcc.census ≠ 0) : enterPresenting u = { u with
      seq := { u.seq with state := .presenting, present := some ⟨p.cursor, .transferring⟩ }
      hcc := { u.hcc with transfer := .shifting p.cursor.serial } } := by
  obtain ⟨v, hv⟩ : ∃ v : State, v = { u with seq := { u.seq with state := .presenting } } := ⟨_, rfl⟩
  have hb : v.stagedBelongs = true := by
    rw [stagedBelongs_complete (p := p) (image := image) (by rw [hv]; exact hx), hv]
    exact decide_eq_true hc
  have hxv : v.xpe.staging = .complete p image := by rw [hv]; exact hx
  have hord : enterPresenting u = startTransfer (beginPresent .transferring v) := by
    rw [enterPresenting, ← hv, orderPresent_of_no_present (by rw [hv]; exact hp) (by rw [hv]; exact ht)]
    simp only [presentCursor, hxv, hb]
  have hbegin : beginPresent .transferring v = { u with
      seq := { u.seq with state := .presenting, present := some ⟨p.cursor, .transferring⟩ } } := by
    rw [beginPresent, hv]
    simp only [hc, Option.map_some]
  rw [hord, hbegin]
  exact startTransfer_eq (s := { u with
    seq := { u.seq with state := .presenting, present := some ⟨p.cursor, .transferring⟩ } }) hx hn
    ((isTaking_eq_false_iff u).2 ht) hr

/-- R69: a SCHEDULE job for the cursor pick is adopted. -/
theorem enterPresenting_adopts {u : State} {p : Plan} {c : Cursor} {k : Nat} (hp : u.seq.present = none)
    (hx : u.xpe = ⟨some ⟨.schedule, c, k⟩, .filling p⟩) (hc : u.seq.cursor = some p.cursor) (ht : ¬u.takes) :
    enterPresenting u = { u with
      seq := { u.seq with state := .presenting, present := some ⟨p.cursor, .expanding⟩ }
      xpe := ⟨some ⟨.present, c, k⟩, .filling p⟩ } := by
  obtain ⟨v, hv⟩ : ∃ v : State, v = { u with seq := { u.seq with state := .presenting } } := ⟨_, rfl⟩
  have hxv : v.xpe = ⟨some ⟨.schedule, c, k⟩, .filling p⟩ := by rw [hv]; exact hx
  have hb : v.stagedBelongs = true := by
    rw [State.stagedBelongs, hxv, hv]
    exact decide_eq_true hc
  rw [enterPresenting, ← hv, orderPresent_of_no_present (by rw [hv]; exact hp) (by rw [hv]; exact ht)]
  simp only [presentCursor, hxv, hb]
  rw [beginPresent, hv]
  simp only [hc, Option.map_some]

/-- R132: rest in STOPPING with the window closed. -/
theorem enterReady_eq (u : State) : enterReady u = raise .w .planChanged (raise .d .readyChanged
    { u with seq := { u.seq with state := .ready }, wft := { u.wft with withheld := false } }) := rfl

theorem enterPresenting_waits {u : State} (ht : u.takes) :
    enterPresenting u = { u with seq := { u.seq with state := .presenting, presentWaiting := true } } :=
  orderPresent_taking (s := { u with seq := { u.seq with state := .presenting } }) ((isTaking_iff_takes u).2 ht)

theorem window_enterPresenting {u : State} (hw : u.wft.window = none) (hr : u.wft.report = none) :
    (enterPresenting u).wft.window = none ∧ (enterPresenting u).wft.report = none :=
  (calm_window none none).enterPresenting ⟨hw, hr⟩

/-- R132 after the verdict: what a commit or an interrupted window is said to leave stays. -/
theorem commitKept_enterPresenting {u : State} (hw : u.wft.window = none) (hr : u.wft.report = none) :
    u.CommitKept (enterPresenting u) := by
  obtain ⟨h1, h2⟩ := window_enterPresenting hw hr
  exact (kept_enterPresenting u).commitKept (h1.trans hw.symm) (h2.trans hr.symm)

/-! ### The hooks and the buffer after a commit -/

/-- `t` stands at the hooks as `s`, and outside a TAKE has nothing staged. -/
structure State.Cleared (s t : State) : Prop where
  latched : t.hcc.latched = s.hcc.latched
  released : t.hcc.holdsReleased = s.hcc.holdsReleased
  census : t.hcc.census = s.hcc.census
  taking : t.hcc.isTaking = s.hcc.isTaking
  empty : s.hcc.isTaking = false → t.xpe = ⟨none, .empty⟩

theorem State.Cleared.same {s t u : State} (h : s.Cleared t) (hh : u.hcc = t.hcc) (hx : u.xpe = t.xpe) : s.Cleared u where
  latched := by rw [hh, h.latched]
  released := by rw [hh, h.released]
  census := by rw [hh, h.census]
  taking := by rw [hh, h.taking]
  empty := fun k => by rw [hx, h.empty k]

theorem cleared_discardStaging {s u : State} (h : u.hcc = s.hcc) : s.Cleared (discardStaging u) where
  latched := by rcases discardStaging_hcc u with e | e <;> rw [e, h]
  released := by rcases discardStaging_hcc u with e | e <;> rw [e, h]
  census := by rcases discardStaging_hcc u with e | e <;> rw [e, h]
  taking := by rw [discardStaging_isTaking, h]
  empty := fun k => discardStaging_xpe (by rw [h]; exact k)

/-- R56, R73: the cursor moves to another pick. -/
theorem cleared_moveCursor {s u : State} {c : Cursor} (h : u.hcc = s.hcc) (hc : u.seq.cursor ≠ some c) :
    s.Cleared (moveCursor c u) := by
  unfold moveCursor
  dsimp only
  rw [if_neg hc]
  refine cleared_discardStaging (.trans ?_ h)
  rw [show (releaseCursor u.seq.cursor { claim .cursor c.slot u with
      seq := { u.seq with cursor := some c, serial := c.serial } } : State) = placeCursor u.seq.state c u from rfl]
  exact (recounted_placeCursor u.seq.state c u).hcc_eq

theorem cursorAfter_ne (s : State) (p : Plan) : p.cursor ≠ s.cursorAfter p := by
  intro h
  have h1 := congrArg Cursor.serial h
  rw [cursorAfter_serial] at h1
  revert h1
  generalize p.cursor.serial = x
  bv_omega

theorem cleared_commitCore {p : Plan} {s : State} (hp : s.pendingPlan = some p) : s.Cleared (commitCore p s) := by
  have hr := recounted_commitCore p s
  have hh : (recorded p s).hcc = s.hcc := (recounted_appendEntry (s.entryAt p) s).hcc_eq
  have hc : (recorded p s).seq.cursor ≠ some (s.cursorAfter p) := by
    rw [recorded_seq]
    show s.seq.cursor ≠ _
    rw [pendingPlan_cursor hp]
    exact fun k => cursorAfter_ne s p (Option.some.inj k)
  exact (cleared_moveCursor hh hc).same hr.hcc_eq (by rw [hr.only])

section
variable {s : State} {p : Plan} {n : Half} (hp : s.pendingPlan = some p)
include hp

theorem cleared_committing : s.Cleared (s.committing p n) := by
  have h := cleared_commitCore ((closing_pendingPlan s p n).trans hp)
  have hh : (s.closing p n).hcc = s.hcc := by rw [closing_only]
  exact ⟨by rw [← hh]; exact h.latched, by rw [← hh]; exact h.released, by rw [← hh]; exact h.census,
    by rw [← hh]; exact h.taking, fun k => h.empty (by rw [hh]; exact k)⟩

/-- R82: after its commit a pick is no pending pick. -/
theorem pendingPlan_commitVerdict : (commitVerdict n s).pendingPlan = none := by
  cases hq : (commitVerdict n s).pendingPlan with
  | none => rfl
  | some q =>
    rw [commitVerdict_eq hp n] at hq
    have h1 := (fewerPlans_triggerWhen ..).pending q hq
    rw [noticed_only] at h1
    obtain ⟨hl, -, hc⟩ := pendingPlan_eq_some.1 h1
    have hlat : (s.committing p n).hcc.latched.plan = some q := hl
    have hcur : (s.committing p n).seq.cursor = some q.cursor := hc
    rw [(cleared_committing hp).latched, (pendingPlan_eq_some.1 hp).1] at hlat
    cases hlat
    rw [committing_seq] at hcur
    exact absurd (Option.some.inj hcur).symm (cursorAfter_ne s p)

/-- R128, R73: a commit that MARK-STOP does not follow into guard leaves the hooks and, outside a TAKE, nothing staged. -/
theorem cleared_commitVerdict (hg : s.seq.state.guarded)
    (hs : s.stopsAt p = false ∨ s.grd.isEnabled .markStop = false) : s.Cleared (commitVerdict n s) := by
  obtain ⟨u, ho, hq, hen, he⟩ := commitVerdict_marked hp n
  have hcu : s.Cleared u := (cleared_committing (n := n) hp).same (by rw [ho]) (by rw [ho])
  have hstate : u.seq.state ≠ .unloaded := hq ▸ SeqState.loaded_of_guarded hg
  rw [he]
  rcases hs with h | h
  · rw [h]
    exact hcu
  · cases s.stopsAt p
    · exact hcu
    · rw [triggerWhen, if_pos rfl, trigger_disabled hstate (hen.trans h)]
      exact hcu.same rfl rfl

end

/-! ### Rest in STOPPING -/

theorem not_latched_and_empty {u : State} {x : Staging} (hx : u.xpe.staging = x) (hne : x ≠ .empty) :
    ¬(u.latchedBelongs = true ∧ u.xpe = ⟨none, .empty⟩) := fun h => hne (hx.symm.trans (congrArg Xpe.staging h.2))

/-- R132, R69: a PRESENT order that expands the cursor pick anew. -/
theorem enterPresenting_expands {u : State} {c : Cursor} (ht : ¬u.takes) (hc : u.seq.cursor = some c)
    (hb : u.stagedBelongs = false) : (enterPresenting u).seq.state = .presenting ∧
      (enterPresenting u).seq.present = some ⟨c, .expanding⟩ ∧
      (enterPresenting u).xpe.job = some ⟨.present, c, 128 * u.hcc.census⟩ ∧
      (enterPresenting u).hcc.latched = u.hcc.latched ∧ (enterPresenting u).seq.cursor = some c ∧
      (enterPresenting u).seq.history = u.seq.history ∧
      (u.xpe = ⟨none, .empty⟩ → u.presentBegun (enterPresenting u) c) := by
  obtain ⟨hk, hs, -, -, hl, -, -, hp, -⟩ := enterPresenting_does u
  obtain ⟨h1, h2⟩ := hp c ht hc hb
  exact ⟨hs, h1, h2, hl, hk.cursor.trans hc, hk.history, fun hx =>
    presentBegun_orderPresent (s := u) (u := { u with seq := { u.seq with state := .presenting } }) rfl hc hx
      ((isTaking_eq_false_iff u).2 ht) rfl⟩

/-- R89: an open window in which nothing arrived is interrupted. -/
theorem verdictAtRest_interrupts {u : State} {n : Half} (hc : u.wft.capture = none)
    (hr : ∀ x, u.wft.report = some ⟨n, x⟩ → x = .inserted) : verdictAtRest n u =
      raise .w .windowInterrupted (raise .p .windowInterrupted (closeWindow n .interrupted u)) := by
  rw [verdictAtRest, failureFor_eq_false hr, if_neg Bool.false_ne_true, if_pos hc]

/-- R89: an open window with a failure report fails. -/
theorem verdictAtRest_fails {u : State} {n : Half} {x : Insertion} (hr : u.wft.report = some ⟨n, x⟩) (hx : x ≠ .inserted) :
    verdictAtRest n u = failVerdict n .fail .weftFail u := if_pos ((failureFor_iff ..).2 ⟨x, hr, hx⟩)

/-- R132 after a commit without MARK-STOP: the new cursor pick is presented. -/
theorem leaveStopping_committed {u : State} {p : Plan} {n : Half} (hq : u.seq.state = .stopping) (hp : u.pendingPlan = some p)
    (hs : u.stopsAt p = false ∨ u.grd.isEnabled .markStop = false) :
    leaveStopping (commitVerdict n u) = enterPresenting (commitVerdict n u) := by
  have hg : u.seq.state.guarded := by rw [hq]; decide
  refine leaveStopping_presents (((commitVerdict_state hg hp).1 hs).trans hq) fun h => ?_
  rw [State.latchedBelongs, pendingPlan_commitVerdict hp] at h
  cases h.1

theorem restTaken_committed {u : State} {p : Plan} {n : Half} {angle : Nat} (hq : u.seq.state = .stopping)
    (hp : u.pendingPlan = some p) (hc : u.wft.capture = some angle)
    (hr : ∀ x, u.wft.report = some ⟨n, x⟩ → x = .inserted) : ∃ stops : Bool,
    u.pickCommitted (leaveStopping (commitVerdict n u)) p n angle stops ∧
      (stops = true → u.grd.isEnabled .markStop = true → (leaveStopping (commitVerdict n u)).seq.state = .guard ∨
        (leaveStopping (commitVerdict n u)).seq.state = .halted) ∧
      (stops = false ∨ u.grd.isEnabled .markStop = false → (leaveStopping (commitVerdict n u)).seq.state = .presenting ∧
        (u.takes → (leaveStopping (commitVerdict n u)).seq.presentWaiting = true) ∧
        (¬u.takes → ∃ c, (leaveStopping (commitVerdict n u)).seq.cursor = some c ∧
          (leaveStopping (commitVerdict n u)).seq.present = some ⟨c, .expanding⟩ ∧
          (leaveStopping (commitVerdict n u)).xpe.job = some ⟨.present, c, 128 * u.hcc.census⟩)) := by
  have hg : u.seq.state.guarded := by rw [hq]; decide
  have hcommit := pickCommitted_commitVerdict hg hp hc hr
  obtain ⟨hstays, hguard⟩ := commitVerdict_state (n := n) hg hp
  by_cases hs : u.stopsAt p = false ∨ u.grd.isEnabled .markStop = false
  · have hno : ¬(u.stopsAt p = true ∧ u.grd.isEnabled .markStop = true) := by
      rintro ⟨h1, h2⟩
      rcases hs with h | h
      · cases h1.symm.trans h
      · cases h2.symm.trans h
    rw [leaveStopping_committed hq hp hs]
    obtain ⟨v, hv⟩ : ∃ v, v = commitVerdict n u := ⟨_, rfl⟩
    have hclear := cleared_commitVerdict (n := n) hp hg hs
    rw [← hv] at hcommit hclear ⊢
    have hcommit' := hcommit
    obtain ⟨-, -, -, -, -, -, -, -, hw, hrep, -⟩ := hcommit'
    obtain ⟨hk, hst, -, -, -, -, hgrd, hp1, hp2⟩ := enterPresenting_does v
    have htk : v.takes ↔ u.takes := by rw [← isTaking_iff_takes, ← isTaking_iff_takes, hclear.taking]
    refine ⟨u.stopsAt p, (commitKept_enterPresenting hw hrep).pickCommitted ?_ (fun a b => absurd ⟨a, b⟩ hno) hcommit,
      fun a b => absurd ⟨a, b⟩ hno, fun _ => ⟨hst, fun ht => (hp2 (htk.2 ht)).1, fun ht => ?_⟩⟩
    · rw [hgrd]
      exact ⟨rfl, rfl⟩
    · have hx := hclear.empty ((isTaking_eq_false_iff u).2 ht)
      have hb : v.stagedBelongs = false := by rw [State.stagedBelongs, hx]; rfl
      have hcur : v.seq.cursor = some (u.cursorAfter p) := by
        obtain ⟨w, ho, -, -, he⟩ := commitVerdict_marked hp n
        rw [hv, he, (kept_triggerWhen ..).cursor, ho]
        exact (congrArg Seq.cursor (committing_seq n))
      obtain ⟨h1, h2⟩ := hp1 _ (mt htk.1 ht) hcur hb
      exact ⟨_, hk.cursor.trans hcur, h1, by rw [h2, hclear.census]⟩
  · have hs1 : u.stopsAt p = true := by
      rw [← Bool.not_eq_false]
      exact fun k => hs (.inl k)
    have hs2 : u.grd.isEnabled .markStop = true := by
      rw [← Bool.not_eq_false]
      exact fun k => hs (.inr k)
    have hin := hguard hs1 hs2
    rw [leaveStopping_of_ne (u := commitVerdict n u) (by rcases hin with k | k <;> rw [k] <;> decide)]
    exact ⟨u.stopsAt p, hcommit, fun _ _ => hin, fun k => absurd k hs⟩

theorem restTaken_interrupted {u : State} {n : Half} (hq : u.seq.state = .stopping) (hc : u.wft.capture = none)
    (hr : ∀ x, u.wft.report = some ⟨n, x⟩ → x = .inserted) (t : State) (ht : t = leaveStopping (verdictAtRest n u)) :
    t.seq.state = (if u.latchedBelongs = true ∧ u.xpe = ⟨none, .empty⟩ then .ready else .presenting) ∧
      t.wft.window = none ∧ (∃ o, t.wft.verdict = some ⟨n, .interrupted, u.pendingFeeder, none, o⟩) ∧
      .windowInterrupted ∈ t.plk.notices ∧ .windowInterrupted ∈ t.wlk.notices ∧ t.seq.cursor = u.seq.cursor ∧
      t.seq.history = u.seq.history ∧ t.wft.feeders = u.wft.feeders := by
  obtain ⟨v, hv⟩ : ∃ v, v = verdictAtRest n u := ⟨_, rfl⟩
  have he := verdictAtRest_interrupts hc hr
  rw [← hv] at he ht
  have hp : .windowInterrupted ∈ v.plk.notices := by
    rw [he]
    simp
  have hw : .windowInterrupted ∈ v.wlk.notices := by
    rw [he]
    simp
  have hver : v.wft.verdict = some ⟨n, .interrupted, u.pendingFeeder, none, u.wft.reportFor n⟩ := by
    rw [← hc, he]
    rfl
  have hvq : v.seq = u.seq := by rw [he]; rfl
  have hvx : v.xpe = u.xpe := by rw [he]; rfl
  have hvf : v.wft.window = none ∧ v.wft.report = none ∧ v.wft.feeders = u.wft.feeders := by rw [he]; exact ⟨rfl, rfl, rfl⟩
  have hvl : v.latchedBelongs = u.latchedBelongs := by rw [he]; rfl
  have hvs : v.seq.state = .stopping := by rw [hvq]; exact hq
  by_cases hready : u.latchedBelongs = true ∧ u.xpe = ⟨none, .empty⟩
  · have hm := fun l => ((kept_raise .d .readyChanged { v with
      seq := { v.seq with state := .ready }, wft := { v.wft with withheld := false } }).trans (kept_raise .w .planChanged _)).links l
    rw [if_pos hready, ht, leaveStopping_ready hvs (by rw [hvl, hvx]; exact hready)]
    exact ⟨rfl, hvf.1, ⟨_, hver⟩, (hm .p).notices _ hp, (hm .w).notices _ hw, by rw [← hvq]; rfl, by rw [← hvq]; rfl, hvf.2.2⟩
  · obtain ⟨hk, hs, -⟩ := enterPresenting_does v
    rw [if_neg hready, ht, leaveStopping_presents hvs (by rw [hvl, hvx]; exact hready)]
    exact ⟨hs, (window_enterPresenting hvf.1 hvf.2.1).1, ⟨_, hk.verdict.trans hver⟩, (hk.links .p).notices _ hp,
      (hk.links .w).notices _ hw, by rw [hk.cursor, hvq], by rw [hk.history, hvq], hk.feeders.trans hvf.2.2⟩

/-- R132, R69, R89: rest in STOPPING. -/
theorem restTaken_restStopping {u : State} (hq : u.seq.state = .stopping) : u.restTaken (restStopping u) where
  ready := fun hw hl hx => by rw [restStopping_closed hw, leaveStopping_ready hq ⟨hl, hx⟩, enterReady_eq]
  waits := fun hw hn ht => by rw [restStopping_closed hw, leaveStopping_presents hq hn, enterPresenting_waits ht]
  reuses := fun p image hw hp hx hc ht hr hn => by
    rw [restStopping_closed hw, leaveStopping_presents hq (not_latched_and_empty hx nofun),
      enterPresenting_reuses hp hx hc ht hr hn]
  adopts := fun p c k hw hp hx hc ht => by
    rw [restStopping_closed hw, leaveStopping_presents hq (not_latched_and_empty (congrArg Xpe.staging hx) nofun),
      enterPresenting_adopts hp hx hc ht]
  expands := fun c hw hb hc ht hn => by
    rw [restStopping_closed hw, leaveStopping_presents hq hn]
    exact enterPresenting_expands ht hc hb
  interrupted := fun n hw hc hr => restTaken_interrupted hq hc hr _ (restStopping_open hw)
  failed := fun n x hw hr hx he => by
    have hg : u.seq.state.guarded := by rw [hq]; decide
    have hrep : u.wft.reportFor n = some x := (reportFor_eq_some_iff ..).2 hr
    have hv : closeWindow n .fail u = { u with wft := { u.wft with
        window := none, report := none, verdict := some ⟨n, .fail, u.pendingFeeder, u.wft.capture, some x⟩ } } := by
      rw [closeWindow, hrep]
    have hin := (heldBy_trigger_taken (x := .weftFail) (s := closeWindow n .fail u) hg he).state
    have hne : (failVerdict n .fail .weftFail u).seq.state ≠ .stopping := by
      rcases shaken_accountFailure u.pendingFeeder (trigger .weftFail (closeWindow n .fail u)) with ⟨-, hs, -⟩ | ⟨-, hs, -⟩
      · show (accountFailure _ _).seq.state ≠ _
        rw [hs]
        rcases hin with k | k <;> rw [k] <;> decide
      · show (accountFailure _ _).seq.state ≠ _
        rcases hs with k | k <;> rw [k] <;> decide
    refine ⟨_, rfl, ?_⟩
    rw [restStopping_open hw, verdictAtRest_fails hr hx, leaveStopping_of_ne hne, ← hv]
    exact failureAccounted_accountFailure ..
  committed := fun p n angle hw hc hr hp => by
    rw [restStopping_open hw, verdictAtRest_commits hc hr]
    exact restTaken_committed hq hp hc hr

theorem shaken_verdictAtRest (n : Half) (s : State) : s.Shaken (verdictAtRest n s) := by
  have hi : s.Shaken (raise .w .windowInterrupted (raise .p .windowInterrupted (closeWindow n .interrupted s))) :=
    ((shaken_raise ..).trans (shaken_raise ..)).after rfl rfl rfl rfl
  exact shaken_ite (shaken_failVerdict ..) (shaken_ite hi (shaken_commitVerdict ..))

/-- R139: where rest in STOPPING ends in guard, a guard entry has been made, and the shaft coasts. -/
theorem coasting_restStopping {u : State} (hq : u.seq.state = .stopping) (h : (restStopping u).seq.state = .guard) :
    (restStopping u).seq.coasting = true := by
  have settles : ∀ v : State, u.Shaken v → (leaveStopping v).seq.state = .guard → (leaveStopping v).seq.coasting = true := by
    intro v hv hg
    by_cases hs : v.seq.state = .stopping
    · by_cases hr : v.latchedBelongs = true ∧ v.xpe = ⟨none, .empty⟩
      · rw [leaveStopping_ready hs hr] at hg
        cases hg
      · rw [leaveStopping_presents hs hr, (enterPresenting_does v).2.1] at hg
        cases hg
    · rw [leaveStopping_of_ne hs]
      rcases hv with ⟨-, hk, -⟩ | ⟨-, -, hc, -⟩
      · exact absurd (hk.trans hq) hs
      · exact hc
  cases hw : u.wft.window with
  | none =>
    rw [restStopping_closed hw] at h ⊢
    exact settles u (.refl u) h
  | some n =>
    rw [restStopping_open hw] at h ⊢
    exact settles _ (shaken_verdictAtRest n u) h

/-! ### The rest handling by the sequencer state (R124) -/

/-- The state of a rest handling with run-down clear. -/
def State.ranDown (s : State) : State := { s with seq := { s.seq with runDown := false } }

section
variable {s : State} (b : Bool)

theorem restHandling_quiet (h : s.seq.state = .unloaded ∨ s.seq.state = .presenting ∨ s.seq.state = .ready ∨
    s.seq.state = .running) : restHandling b s = s.ranDown := by
  unfold restHandling
  dsimp only
  split <;> rename_i hq <;> rw [hq] at h
  case h_5 | h_6 | h_7 | h_8 => rfl
  all_goals exact absurd h (by decide)

theorem restHandling_stopping (h : s.seq.state = .stopping) : restHandling b s = restStopping s.ranDown := by
  unfold restHandling
  dsimp only
  split <;> rename_i hq <;> cases h.symm.trans hq
  rfl

theorem restHandling_finding (h : s.seq.state = .finding) : restHandling b s = findExitCheck s.ranDown := by
  unfold restHandling
  dsimp only
  split <;> rename_i hq <;> cases h.symm.trans hq
  rfl

end

/-- R124: coasting ends with run-down, or at a STOP. -/
def State.coasted (b : Bool) (s : State) : State :=
  { s.ranDown with seq := { s.ranDown.seq with coasting := s.seq.coasting && !(s.seq.runDown || b) } }

section
variable {s : State} (b : Bool)

theorem coasted_eq (s : State) : (if (s.seq.runDown || b) = true then
    { s.ranDown with seq := { s.ranDown.seq with coasting := false } } else s.ranDown) = s.coasted b := by
  unfold State.coasted
  cases s.seq.runDown || b
  · simp [State.ranDown]
  · simp

theorem restHandling_halted (h : s.seq.state = .halted) : restHandling b s = s.coasted b := by
  rw [← coasted_eq]
  unfold restHandling
  dsimp only
  split <;> rename_i hq <;> cases h.symm.trans hq
  rfl

theorem restHandling_guard (h : s.seq.state = .guard) : restHandling b s =
    if (s.seq.runDown || b) = true then exitCheck (s.coasted b) else s.coasted b := by
  have hc : ∀ hb : (s.seq.runDown || b) = true, s.coasted b = { s.ranDown with seq := { s.ranDown.seq with coasting := false } } :=
    fun hb => by rw [← coasted_eq, if_pos hb]
  have hn : ∀ hb : ¬(s.seq.runDown || b) = true, s.coasted b = s.ranDown := fun hb => by rw [← coasted_eq, if_neg hb]
  unfold restHandling
  dsimp only
  split <;> rename_i hq <;> cases h.symm.trans hq
  by_cases hb : (s.seq.runDown || b) = true
  · rw [if_pos hb, if_pos hb, hc hb]
    rfl
  · rw [if_neg hb, if_neg hb, hn hb]
    rfl

end

/-- R170: what an exit check leaves passes no other. -/
theorem exitCheck_exitCheck (s : State) : exitCheck (exitCheck s) = exitCheck s := by
  by_cases h : s.seq.state = .guard ∧ s.mayExit = true
  · rw [exitCheck_of_mayExit h.1 h.2]
    refine exitCheck_of_ne ?_
    rw [(guardLeft_guardExit s).state]
    split <;> decide
  · have he : exitCheck s = s := if_neg h
    rw [he, he]

theorem exitCheck_restHandling_guard {s : State} (b : Bool) (h : s.seq.state = .guard) :
    exitCheck (restHandling b s) = exitCheck (s.coasted b) := by
  rw [restHandling_guard b h]
  split
  · exact exitCheck_exitCheck _
  · rfl

theorem State.SameExit.coasted {s u : State} (h : s.SameExit u) (b : Bool) : s.SameExit (u.coasted b) :=
  ⟨h.cursor, h.history, h.woven, h.owed, h.latched, h.released, h.dropHeld, h.census, h.taking, h.transfer, h.staged, h.chu,
    h.entry⟩

/-! ### The expiry of the settle timer -/

/-- The tracker at rest (R10). -/
def State.atRest (s : State) : State :=
  { s with ang := { s.ang with rest := .atRest, restAngle := s.ang.angle, reverseTravel := 0, settleTimer := none } }

theorem findExitCheck_leaves {u : State} (hq : u.seq.state = .finding) (hg : u.seq.grant = .none) (hr : u.seq.runDown = false)
    (hp : u.seq.present = none) (hf : u.seq.findWaiting = 0) : findExitCheck u = enterReady u := if_pos ⟨hq, hg, hr, hp, hf⟩

theorem findExitCheck_stays {u : State} (h : ¬(u.seq.grant = .none ∧ u.seq.present = none ∧ u.seq.findWaiting = 0)) :
    findExitCheck u = u := if_neg fun k => h ⟨k.2.1, k.2.2.2⟩

/-- Settles O53: by the sequencer state, as `restHandling` takes it; in GUARD the exit check; STOPPING is
`restTaken_restStopping`. -/
theorem settleExpiryDeclaresRest : Obligations.SettleExpiryDeclaresRest := by
  intro s
  have hexec : exec .settleTimerExpiry s = execSettleTimerExpiry s := rfl
  refine ⟨fun h => by rw [hexec, execSettleTimerExpiry, h], fun h => ⟨s.atRest.ranDown, rfl, ?_⟩⟩
  obtain ⟨k, hk⟩ := Option.ne_none_iff_exists'.1 h
  have he : exec .settleTimerExpiry s = .next (exitCheck (restHandling false s.atRest)) := by
    rw [hexec, execSettleTimerExpiry, hk]
    rfl
  have hcoast : s.atRest.coasted false = { s.atRest.ranDown with
      seq := { s.atRest.ranDown.seq with coasting := s.seq.coasting && !s.seq.runDown } } := by
    simp only [State.coasted, Bool.or_false]
    rfl
  have hmay : (s.atRest.coasted false).mayExit = true ↔ (s.seq.coasting && !s.seq.runDown) = false ∧ s.grd.levelCause = false := by
    rw [mayExit_iff, hcoast]
    exact ⟨fun k => k.2, fun k => ⟨rfl, k⟩⟩
  have hexit : s.SameExit s.atRest := sameExit_of_units rfl rfl rfl rfl rfl
  rw [he]
  refine ⟨fun hq => ?_, fun hq => ?_, fun hq hn => ?_, fun hq hc hl => ⟨_, rfl, ?_⟩, fun hq hg hp hf => ?_, fun hq hn => ?_,
    fun hq => ⟨_, rfl, ?_⟩⟩
  · rw [restHandling_quiet (s := s.atRest) false hq, exitCheck_of_ne]
    show s.seq.state ≠ .guard
    rcases hq with h | h | h | h <;> rw [h] <;> decide
  · rw [restHandling_halted (s := s.atRest) false hq, exitCheck_of_ne, hcoast]
    show s.seq.state ≠ .guard
    rw [hq]
    decide
  · rw [exitCheck_restHandling_guard (s := s.atRest) false hq, exitCheck, if_neg, hcoast]
    rintro ⟨-, hm⟩
    obtain ⟨h1, h2⟩ := hmay.1 hm
    rcases hn with hn | hn
    · cases h1.symm.trans hn
    · cases h2.symm.trans hn
  · rw [exitCheck_restHandling_guard (s := s.atRest) false hq]
    exact exitCheck_leaves (hexit.coasted false) rfl rfl hq (hmay.2 ⟨hc, hl⟩)
  · rw [restHandling_finding (s := s.atRest) false hq, findExitCheck_leaves (u := s.atRest.ranDown) hq hg rfl hp hf,
      exitCheck_of_ne (s := enterReady s.atRest.ranDown) (show SeqState.ready ≠ .guard by decide), enterReady_eq]
  · rw [restHandling_finding (s := s.atRest) false hq, findExitCheck_stays (u := s.atRest.ranDown) hn, exitCheck_of_ne]
    show s.seq.state ≠ .guard
    rw [hq]
    decide
  · rw [restHandling_stopping (s := s.atRest) false hq,
      exitCheck_of_coasting fun hg => coasting_restStopping (u := s.atRest.ranDown) hq hg]
    exact restTaken_restStopping (u := s.atRest.ranDown) hq

end Sys2Proof.Machine
end

section
/-! PROOFS. STOP (R123, R124). -/

namespace Sys2Proof.Machine

/-- STOP before the rest handling (R123). -/
def State.dropped (s : State) : State := { s with
  seq := { s.seq with grant := .none, state := if s.seq.state = .running then .stopping else s.seq.state }
  ang := if s.seq.state = .running then { s.ang with stallWatch := .off, stallTimer := none } else s.ang }

theorem dropGrant_eq (s : State) : dropGrant s = s.dropped := by
  unfold dropGrant State.dropped
  dsimp only
  split
  · rfl
  · rfl

/-- The grant dropped, outside RUNNING. -/
def State.ungranted (s : State) : State := { s with seq := { s.seq with grant := .none } }

theorem dropped_of_ne {s : State} (h : s.seq.state ≠ .running) : s.dropped = s.ungranted := by
  simp only [State.dropped, if_neg h]
  rfl

/-- R124: a STOP at rest ends coasting. -/
theorem coasted_ungranted (s : State) :
    s.ungranted.coasted true = { s with seq := { s.seq with grant := .none, runDown := false, coasting := false } } := by
  simp only [State.coasted, Bool.or_true, Bool.not_true, Bool.and_false]
  rfl

theorem sameExit_ungranted (s : State) : s.SameExit (s.awaited .d .motion).ungranted := ⟨rfl, rfl, rfl, rfl, rfl, rfl, rfl, rfl, .rfl, fun _ => rfl,
  rfl, rfl, rfl⟩

theorem stopMotion_moving {s : State} (h : s.ang.rest = .moving) :
    stopMotion s = { s.dropped with seq := { s.dropped.seq with runDown := true } } := by
  rw [stopMotion, h, dropGrant_eq]

theorem stopMotion_atRest {s : State} (h : s.ang.rest = .atRest) : stopMotion s = restHandling true s.dropped := by
  rw [stopMotion, h, dropGrant_eq]

/-- R123: STOP is never refused; its answer shows the grant and the state that it leaves. -/
theorem exec_stop {s : State} (ho : s.dlk.isOpen = true) : exec .stop s = .next
    (answer .d ⟨.ok, b8 (grantCode (stopMotion (s.awaited .d .motion)).seq.grant) ++
      b8 (stateCode (stopMotion (s.awaited .d .motion)).seq.state)⟩ (stopMotion (s.awaited .d .motion))) := by
  refine congrArg Host.Outcome.next ?_
  rw [request_of_open (l := .d) ho]
  rfl

/-- A STOP whose effects do not reach the D-link. -/
theorem exec_stop_answers {s u : State} (ho : s.dlk.isOpen = true)
    (hu : stopMotion (s.awaited .d .motion) = u.awaited .d .motion) (hd : u.dlk.suppressed = false) :
    exec .stop s = .next (u.responded .d .motion .ok
      [BitVec.ofNat 8 (grantCode u.seq.grant), BitVec.ofNat 8 (stateCode u.seq.state)]) := by
  refine congrArg Host.Outcome.next (request_answers (l := .d) (u := u) ho rfl ?_ hd)
  rw [hu]
  rfl

theorem grant_restStopping {u : State} (hg : u.seq.grant = .none) :
    (restStopping u).seq.grant = .none := by
  have leaves : ∀ v : State, v.seq.grant = .none → (leaveStopping v).seq.grant = .none := by
    intro v hv
    by_cases hs : v.seq.state = .stopping
    · by_cases hr : v.latchedBelongs = true ∧ v.xpe = ⟨none, .empty⟩
      · rw [leaveStopping_ready hs hr]
        exact hv
      · rw [leaveStopping_presents hs hr]
        exact (congrArg Prod.fst ((calm_motion v.seq.motion).enterPresenting rfl)).trans hv
    · rw [leaveStopping_of_ne hs]
      exact hv
  cases hw : u.wft.window with
  | none => rw [restStopping_closed hw]; exact leaves u hg
  | some n =>
    rw [restStopping_open hw]
    refine leaves _ ?_
    rcases shaken_verdictAtRest n u with ⟨-, -, hk, -⟩ | ⟨-, -, -, hk, -⟩
    · exact hk.trans hg
    · exact hk

/-- STOP at rest, outside RUNNING. -/
theorem stopMotion_rest_of_ne {s : State} (h : s.ang.rest = .atRest) (hn : s.seq.state ≠ .running) :
    stopMotion s = restHandling true s.ungranted := by
  rw [stopMotion_atRest h, dropped_of_ne hn]

/-- Settles O24: the grant is dropped, then run-down is set or the rest handling follows. -/
theorem stopEndsGrant : Obligations.StopEndsGrant := by
  intro s ho
  have hd : s.dlk.suppressed = false := ((isOpen_iff s.dlk).1 ho).2.2
  obtain ⟨w, hw⟩ : ∃ w : State, w = s.awaited .d .motion := ⟨_, rfl⟩
  have he := exec_stop ho
  have answers := fun u : State => exec_stop_answers (u := u) ho
  rw [← hw] at he answers
  refine ⟨fun hm hn => ?_, fun hm hr => ?_, fun ha hq => ?_, fun ha hq => ?_, fun ha hq hl => ?_, fun ha hq hl => ?_,
    fun ha hq => ?_, fun ha hq => ?_⟩
  · refine answers { s with seq := { s.seq with grant := .none, runDown := true } } ?_ hd
    rw [stopMotion_moving (by rw [hw]; exact hm), dropped_of_ne (by rw [hw]; exact hn), hw]
    rfl
  · refine answers { s with
      seq := { s.seq with grant := .none, runDown := true, state := .stopping }
      ang := { s.ang with stallWatch := .off, stallTimer := none } } ?_ hd
    have hwr : w.seq.state = .running := by rw [hw]; exact hr
    rw [stopMotion_moving (by rw [hw]; exact hm)]
    simp only [State.dropped, if_pos hwr]
    rw [hw]
    rfl
  · refine answers { s with seq := { s.seq with grant := .none, runDown := false } } ?_ hd
    have hwq : w.seq.state = .unloaded ∨ w.seq.state = .presenting ∨ w.seq.state = .ready := by rw [hw]; exact hq
    rw [stopMotion_rest_of_ne (by rw [hw]; exact ha) (by rcases hwq with h | h | h <;> rw [h] <;> decide),
      restHandling_quiet (s := w.ungranted) true (hwq.imp id (Or.imp id Or.inl)), hw]
    rfl
  · have hwq : w.seq.state = .halted := by rw [hw]; exact hq
    refine (answers { s with seq := { s.seq with grant := .none, runDown := false, coasting := false } } ?_ hd).trans ?_
    · rw [stopMotion_rest_of_ne (by rw [hw]; exact ha) (by rw [hwq]; decide), restHandling_halted (s := w.ungranted) true hwq,
        coasted_ungranted, hw]
      rfl
    · rw [hq]
      rfl
  · have hwq : w.seq.state = .guard := by rw [hw]; exact hq
    refine (answers { s with seq := { s.seq with grant := .none, runDown := false, coasting := false } } ?_ hd).trans ?_
    · rw [stopMotion_rest_of_ne (by rw [hw]; exact ha) (by rw [hwq]; decide), restHandling_guard (s := w.ungranted) true hwq,
        if_pos (Bool.or_true _), coasted_ungranted, exitCheck_stays, hw]
      · rfl
      · rintro ⟨-, -, -, hn⟩
        have : w.grd.levelCause = s.grd.levelCause := by rw [hw]; rfl
        cases (this.trans hl).symm.trans hn
    · rw [hq]
      rfl
  · have hwq : w.seq.state = .guard := by rw [hw]; exact hq
    have hstop : stopMotion w = exitCheck (w.ungranted.coasted true) := by
      rw [stopMotion_rest_of_ne (by rw [hw]; exact ha) (by rw [hwq]; decide), restHandling_guard (s := w.ungranted) true hwq,
        if_pos (Bool.or_true _)]
    have hmotion : (stopMotion w).seq.motion = (.none, false) := by
      rw [hstop]
      exact (calm_motion (.none, false)).exitCheck rfl
    have hkept : Kept (w.ungranted.coasted true) (stopMotion w) := by rw [hstop]; exact kept_exitCheck _
    have hexit : s.guardLeft s.grd.run s.grd.count (stopMotion w) := by
      rw [hstop]
      refine exitCheck_leaves ((hw ▸ sameExit_ungranted s).coasted true) (by rw [hw]; rfl) (by rw [hw]; rfl) hwq
        ((mayExit_iff _).2 ⟨?_, ?_, ?_⟩)
      · rw [hw]; exact ha
      · exact coasted_ungranted w ▸ rfl
      · rw [hw]; exact hl
    have hgrant : (stopMotion w).seq.grant = .none := congrArg Prod.fst hmotion
    rw [hgrant] at he
    exact ⟨_, he, guardLeft_answer hexit .d _, hgrant, congrArg Prod.snd hmotion,
      response_kept (l := .d) (k := s.dlk) (code := Request.motion.code) _ (by rw [hw]; rfl) hd hkept⟩
  · have hwq : w.seq.state = .finding := by rw [hw]; exact hq
    have hstop : stopMotion w = findExitCheck w.ungranted.ranDown := by
      rw [stopMotion_rest_of_ne (by rw [hw]; exact ha) (by rw [hwq]; decide), restHandling_finding (s := w.ungranted) true hwq]
    by_cases hn : s.seq.present = none ∧ s.seq.findWaiting = 0
    · rw [if_pos hn, if_pos hn]
      refine answers (raise .w .planChanged (raise .d .readyChanged { s with
        seq := { s.seq with grant := .none, runDown := false, state := .ready }
        wft := { s.wft with withheld := false } })) ?_ hd
      rw [hstop, findExitCheck_leaves (u := w.ungranted.ranDown) hwq rfl rfl (by rw [hw]; exact hn.1) (by rw [hw]; exact hn.2),
        enterReady_eq, hw]
      rfl
    · rw [if_neg hn, if_neg hn]
      refine (answers { s with seq := { s.seq with grant := .none, runDown := false } } ?_ hd).trans ?_
      · rw [hstop, findExitCheck_stays (u := w.ungranted.ranDown), hw]
        · rfl
        · rw [hw]
          exact fun k => hn ⟨k.2.1, k.2.2⟩
      · rw [hq]
        rfl
  · have hstate : w.dropped.ranDown.seq.state = .stopping := by
      rcases hq with h | h <;> rw [hw] <;> simp [State.ranDown, State.dropped, h]
    have hstop : stopMotion w = restStopping w.dropped.ranDown := by
      rw [stopMotion_atRest (by rw [hw]; exact ha), restHandling_stopping (s := w.dropped) true hstate]
    have hgrant : (stopMotion w).seq.grant = .none := by
      rw [hstop]
      exact grant_restStopping rfl
    rw [hgrant] at he
    refine ⟨w.dropped.ranDown, stopMotion w, ?_, he, ?_⟩
    · rcases hq with h | h <;> rw [hw] <;> simp [State.ranDown, State.dropped, h, State.awaited, State.modLink]
    · rw [hstop]
      exact restTaken_restStopping hstate

end Sys2Proof.Machine
end

section
/-! PROOFS. The find step of a reverse crossing (R4, R134, R135, R155, R156). -/

namespace Sys2Proof.Machine

/-! ### What a PRESENT order and an unwind leave of the shaft -/

theorem shaken_endPresent (s : State) : s.Shaken (endPresent s) := by
  unfold endPresent
  split
  · exact .refl s
  · exact (shaken_discardStaging _).after rfl rfl rfl rfl

theorem shaken_presentCursor (s : State) : s.Shaken (presentCursor s) := by
  unfold presentCursor beginPresent
  split
  · exact (shaken_startTransfer _).after rfl rfl rfl rfl
  · exact .inl ⟨rfl, rfl, rfl, rfl⟩
  · exact (shaken_discardStaging s).trans ((shaken_startJob ..).after rfl rfl rfl rfl)

theorem shaken_orderPresent (s : State) : s.Shaken (orderPresent s) := by
  unfold orderPresent
  split
  · exact .inl ⟨rfl, rfl, rfl, rfl⟩
  · exact (shaken_endPresent s).trans (shaken_presentCursor _)

/-- R135 before the cursor moves: changes and marks given back, one pick fewer woven, the group set back. -/
def State.unwinding (e : HistEntry) (s : State) : State := { unwindChanges e s with
  seq := { (unwindChanges e s).seq with woven := (unwindChanges e s).seq.woven - 1 }
  wft := (unwindChanges e s).wft.restore e.group }

theorem unwind_eq (e : HistEntry) (s : State) : unwind e s = releaseEntry e { moveCursor e.cursor (s.unwinding e) with
    seq := { (moveCursor e.cursor (s.unwinding e)).seq with
      history := (moveCursor e.cursor (s.unwinding e)).seq.history.dropLast } } := rfl

theorem shaken_unwind (e : HistEntry) (s : State) : s.Shaken (unwind e s) := by
  have hchanges : s.Shaken (unwindChanges e s) := by
    refine shaken_of_units ?_ (unwindChanges_seq e s)
    rw [unwindChanges_only]
  have hus : s.Shaken (s.unwinding e) := hchanges.trans (.inl ⟨rfl, rfl, rfl, rfl⟩)
  obtain ⟨v, hv⟩ : ∃ v : State, v = { moveCursor e.cursor (s.unwinding e) with seq := { (moveCursor e.cursor (s.unwinding e)).seq with
    history := (moveCursor e.cursor (s.unwinding e)).seq.history.dropLast } } := ⟨_, rfl⟩
  have hvs : s.Shaken v := (hus.trans (shaken_moveCursor e.cursor _)).trans (by rw [hv]; exact .inl ⟨rfl, rfl, rfl, rfl⟩)
  rw [unwind_eq, ← hv]
  exact hvs.trans (shaken_of_recounted (recounted_releaseEntry e v))

theorem shaken_findStep (s : State) : s.Shaken (findStep s) := by
  unfold findStep
  split
  · exact .inl ⟨rfl, rfl, rfl, rfl⟩
  · dsimp only
    split
    · exact (shaken_endPresent s).trans (shaken_trigger ..)
    · exact (shaken_endPresent s).trans ((shaken_unwind ..).trans (shaken_orderPresent _))

/-! ### The reverse crossing of a MOVING shaft in FINDING -/

/-- R137: REVERSE-TRAVEL outside RUNNING. -/
theorem judgeReverse_of_ne {s : State} (h : s.seq.state ≠ .running) : judgeReverse s = s := if_neg fun k => h k.1

/-- An event with a free place among the two actions of a reverse crossing. -/
theorem placeFreely_crossing (x : ShaftAction) (b : Bool) (n : Int) (i : IndexState) (l : List SchedAngle) (k : Nat) :
    (placeFreely x b ([.place n i l, .crossing .reverse], k)).1 = [.place n i l, .crossing .reverse] ∨
    (placeFreely x b ([.place n i l, .crossing .reverse], k)).1 = [.place n i l, x, .crossing .reverse] ∨
    (placeFreely x b ([.place n i l, .crossing .reverse], k)).1 = [.place n i l, .crossing .reverse, x] := by
  cases b with
  | false => exact .inl rfl
  | true =>
    have hlt : Config.eventPlace k % 2 < 2 := Nat.mod_lt _ (by decide)
    have he : placeFreely x true ([.place n i l, .crossing .reverse], k) =
        (([.place n i l, .crossing .reverse] : List ShaftAction).take (1 + Config.eventPlace k % 2) ++
          x :: ([.place n i l, .crossing .reverse] : List ShaftAction).drop (1 + Config.eventPlace k % 2), k + 1) := rfl
    rw [he]
    rcases Nat.lt_succ_iff_lt_or_eq.1 hlt with h | h
    · rw [Nat.lt_one_iff.1 h]
      exact .inr (.inl rfl)
    · rw [h]
      exact .inr (.inr rfl)

/-- R4, R134: SEQ makes the find step, with the count set, whichever place REVERSE-TRAVEL takes. -/
theorem exec_reverseCrossing_finding {s : State} (hq : s.seq.state = .finding) (hm : s.ang.rest = .moving)
    (hl : s.ang.indexLevel = true) (hi : s.ang.index = .indexed → -2 ≤ s.ang.count ∧ s.ang.count ≤ 2) :
    ∃ (a : Ang) (k : Nat), exec (.encoderStep .reverse false) s = .next (findStep { s with ang := a, draws := k }) := by
  have hoff : s.ang.offMark .reverse = false := by
    cases hx : s.ang.index with
    | unindexed => simp [Ang.offMark, hx]
    | indexed =>
      have hn : ¬(s.ang.count < -2 ∨ 2 < s.ang.count) := by
        have := hi hx
        omega
      simp [Ang.offMark, hn]
  have hord : s.ang.ordered .reverse false = [.place 719 .indexed s.ang.armed, .crossing .reverse] := by
    have hc : s.ang.crosses .reverse false = true := by simp [Ang.crosses, hl]
    simp only [Ang.ordered, hc, Ang.reverseCrossing, hoff]
    rfl
  have hstart : ∀ n, s.ang.startsMotion n = false := fun n => by simp [Ang.startsMotion, hm]
  have hact : s.ang.actions .reverse false s.draws =
      placeFreely .reverseTravel (s.ang.reachesReverse .reverse) ([.place 719 .indexed s.ang.armed, .crossing .reverse], s.draws) := by
    simp only [Ang.actions, hord, hstart]
    rfl
  obtain ⟨m, hmv⟩ : ∃ m, m = s.ang.moved .reverse false (countAfter s.ang.count (s.ang.ordered .reverse false)) := ⟨_, rfl⟩
  obtain ⟨k, hk⟩ : ∃ k, k = (s.ang.actions .reverse false s.draws).2 := ⟨_, rfl⟩
  refine ⟨{ m with count := 719, index := .indexed, armed := s.ang.armed }, k, ?_⟩
  obtain ⟨u, hu⟩ : ∃ u : State, u = { s with
    ang := { m with count := 719, index := .indexed, armed := s.ang.armed }, draws := k } := ⟨_, rfl⟩
  have hexec : exec (.encoderStep .reverse false) s = .next ((s.ang.actions .reverse false s.draws).1.foldl
      (fun s x => x.take s) { s with ang := m, draws := k }) := by rw [hmv, hk]; rfl
  have hplace : ShaftAction.take (.place 719 .indexed s.ang.armed) { s with ang := m, draws := k } = u := by rw [hu]; rfl
  have hqu : u.seq.state = .finding := by rw [hu]; exact hq
  have hcross : ShaftAction.take (.crossing .reverse) u = findStep u := if_pos hqu
  have hbefore : judgeReverse u = u := judgeReverse_of_ne (by rw [hqu]; decide)
  have hafter : judgeReverse (findStep u) = findStep u := by
    refine judgeReverse_of_ne ?_
    rcases shaken_findStep u with ⟨-, h, -⟩ | ⟨-, h | h, -⟩
    · rw [h, hqu]
      decide
    · rw [h]
      decide
    · rw [h]
      decide
  rw [hexec, hact, ← hu]
  refine congrArg Host.Outcome.next ?_
  rcases placeFreely_crossing .reverseTravel (s.ang.reachesReverse .reverse) 719 .indexed s.ang.armed s.draws with h | h | h <;>
    rw [h] <;> simp only [List.foldl_cons, List.foldl_nil, hplace, hcross]
  · show ShaftAction.take (.crossing .reverse) (judgeReverse u) = _
    rw [hbefore, hcross]
  · exact hafter

/-! ### CHU at an unwind (R155, R156) -/

/-- R155: a full queue loses its tail for the change that comes back. -/
theorem restoreChange_chu (a : AppliedChange) (s : State) : (restoreChange a s).chu = { s.chu with
    queue := a.restored :: if s.chu.queue.length < 4 then s.chu.queue else s.chu.queue.dropLast } := by
  by_cases hn : s.chu.queue.length < 4
  · rw [restoreChange_room a hn, if_pos hn, raise_chu, (recounted_claim ..).chu_eq]
  · obtain ⟨c, hc⟩ := exists_tail hn
    rw [restoreChange_full a hn hc, if_neg hn, raise_chu, (recounted_claim ..).chu_eq]
    rfl

theorem changeRestored_restoreChange (a : AppliedChange) (s : State) :
    .changeRestored ∈ (restoreChange a s).plk.notices := by
  unfold restoreChange
  exact (mem_raise ..).2 (.inl rfl)

theorem changeDropped_restoreChange (a : AppliedChange) {s : State} {q : List Change} {x : Change}
    (h : s.chu.queue = q ++ [x]) (hl : 3 ≤ q.length) :
    .changeDropped ∈ (restoreChange a s).plk.notices ∧ (restoreChange a s).plk.droppedId = some x.id := by
  have hn : ¬s.chu.queue.length < 4 := by
    rw [h, List.length_append, List.length_singleton]
    omega
  rw [restoreChange_full a hn (by rw [h, List.getLast?_concat])]
  exact ⟨(mem_raise ..).2 (.inr ((mem_raise ..).2 (.inl rfl))), rfl⟩

theorem design_restoreChange (a : AppliedChange) (s : State) (i : Fin 8) : (restoreChange a s).design i = s.design i := by
  by_cases hn : s.chu.queue.length < 4
  · rw [restoreChange_room a hn]
    exact design_claim ..
  · obtain ⟨c, hc⟩ := exists_tail hn
    rw [restoreChange_full a hn hc]
    exact (design_claim ..).trans (design_release ..)

theorem get_uncountHits (u : Chu) (hits : List (Fin 4)) (k : Fin 4) : (u.uncountHits hits).comps.get k =
    { u.comps.get k with hits := if k ∈ hits then (u.comps.get k).hits - 1 else (u.comps.get k).hits } := by
  simp only [Chu.uncountHits, get_ofFn]
  split
  · rfl
  · rfl

/-- R155, then R156, then R157. -/
theorem unwindChanges_chu (e : HistEntry) (s : State) : (unwindChanges e s).chu =
    ({ s.chu with queue := e.counted.elim id giveBackCount (e.applied.elim s.chu.queue fun a =>
      a.restored :: if s.chu.queue.length < 4 then s.chu.queue else s.chu.queue.dropLast) } : Chu).uncountHits e.hits := by
  unfold unwindChanges
  cases e.applied <;> cases e.counted <;> simp only [restoreChange_chu, Option.elim_some, Option.elim_none, id_eq]

theorem unwindChanges_plk (e : HistEntry) (s : State) :
    (unwindChanges e s).plk = e.applied.elim s.plk fun a => (restoreChange a s).plk := by
  unfold unwindChanges
  cases e.applied <;> rfl

theorem design_unwindChanges (e : HistEntry) (s : State) (i : Fin 8) : (unwindChanges e s).design i = s.design i := by
  unfold unwindChanges
  cases e.applied with
  | none => rfl
  | some a => exact design_restoreChange a s i

theorem restored_eq (a : AppliedChange) : a.restored = ⟨a.id, a.slot, a.card, a.condition,
    (match a.condition with | .atCount _ => some 0 | _ => none), a.phaseReset⟩ := rfl

/-- R156: the change that comes back is given back the count that the same entry took. -/
theorem giveBackCount_restored (a : AppliedChange) (i : Half) (q : List Change) : giveBackCount i (a.restored :: q) =
    (⟨a.id, a.slot, a.card, a.condition,
      (match a.condition with | .atCount m => some (if a.id = i ∧ 0 < m then 1 else 0) | _ => none), a.phaseReset⟩ : Change) :: q := by
  obtain ⟨id, slot, card, condition, phaseReset⟩ := a
  by_cases h : id = i <;> cases condition <;>
    simp [giveBackCount, AppliedChange.restored, Change.giveBack, raiseTo, h]

theorem giveBackCount_atCount {x : Change} {m r : Nat} (hm : x.condition = .atCount m) (hr : x.remaining = some r) (i : Half)
    (q : List Change) : giveBackCount i (x :: q) =
      if x.id = i then { x with remaining := some (if r < m then r + 1 else r) } :: q else x :: q := by
  simp only [giveBackCount, Change.giveBack, hm, hr, raiseTo, Option.map_some]

/-! ### The unwind of an entry of another pick (R56, R135) -/

/-- The cursor placed, before the discard that its move brings (R73). -/
def State.replaced (e : HistEntry) (s : State) : State := placeCursor (s.unwinding e).seq.state e.cursor (s.unwinding e)

theorem unwinding_hooks (e : HistEntry) (s : State) : (s.unwinding e).hcc = s.hcc ∧ (s.unwinding e).xpe = s.xpe ∧
    (s.unwinding e).seq.cursor = s.seq.cursor ∧ (s.unwinding e).wft = s.wft.restore e.group := by
  refine ⟨?_, ?_, ?_, ?_⟩
  · show (unwindChanges e s).hcc = _
    rw [unwindChanges_only]
  · show (unwindChanges e s).xpe = _
    rw [unwindChanges_only]
  · show (unwindChanges e s).seq.cursor = _
    rw [unwindChanges_seq]
  · show (unwindChanges e s).wft.restore e.group = _
    rw [unwindChanges_only]

theorem design_discardStaging (s : State) (i : Fin 8) : (discardStaging s).design i = s.design i := by
  unfold discardStaging
  split
  · rfl
  · split
    · rfl
    · exact design_release ..
    · exact design_release ..

theorem unwind_plk (e : HistEntry) (s : State) : (unwind e s).plk = (unwindChanges e s).plk := by
  have hp : (s.replaced e).plk = (s.unwinding e).plk := by
    rw [State.replaced, (recounted_placeCursor ..).only]
  have h : (moveCursor e.cursor (s.unwinding e)).plk = (s.unwinding e).plk := by
    unfold moveCursor
    dsimp only
    split
    · exact hp
    · rw [discardStaging_plk]
      exact hp
  rw [unwind_eq, (recounted_releaseEntry ..).only]
  exact h

theorem design_unwind (e : HistEntry) (s : State) (i : Fin 8) : (unwind e s).design i = s.design i := by
  have h : (moveCursor e.cursor (s.unwinding e)).design i = s.design i := by
    have hp := (recounted_placeCursor (s.unwinding e).seq.state e.cursor (s.unwinding e)).design_eq i
    unfold moveCursor
    dsimp only
    split
    · exact hp.trans (design_unwindChanges e s i)
    · rw [design_discardStaging]
      exact hp.trans (design_unwindChanges e s i)
  rw [unwind_eq, (recounted_releaseEntry ..).design_eq]
  exact h

theorem unwind_of_moves {e : HistEntry} {s : State} (hc : s.seq.cursor ≠ some e.cursor) (ht : s.hcc.isTaking = false) :
    (unwind e s).xpe = ⟨none, .empty⟩ ∧ (unwind e s).hcc.isTaking = false ∧ (unwind e s).hcc.latched = s.hcc.latched ∧
      (unwind e s).hcc.census = s.hcc.census ∧ (unwind e s).wft.feeders = s.wft.feeders := by
  obtain ⟨hhcc, -, hcur, hwft⟩ := unwinding_hooks e s
  have hp := recounted_placeCursor (s.unwinding e).seq.state e.cursor (s.unwinding e)
  have hm : moveCursor e.cursor (s.unwinding e) = discardStaging (s.replaced e) := if_neg (by rw [hcur]; exact hc)
  have hrh : (s.replaced e).hcc = s.hcc := hp.hcc_eq.trans hhcc
  have hd := presented_discardStaging (s.replaced e)
  have hr := fun v => recounted_releaseEntry e v
  rw [unwind_eq, (hr _).hcc_eq, (hr _).xpe_eq, (hr _).wft_eq, hm]
  refine ⟨discardStaging_xpe (by rw [hrh]; exact ht), (discardStaging_isTaking _).trans (by rw [hrh]; exact ht),
    hd.latched.trans (by rw [hrh]), ?_, hd.kept.feeders.trans ?_⟩
  · show (discardStaging (s.replaced e)).hcc.census = _
    rcases discardStaging_hcc (s.replaced e) with h | h <;> rw [h, hrh]
  · rw [show (s.replaced e).wft = s.wft.restore e.group from hp.wft_eq.trans hwft, restore_feeders]

/-- R134: a find step with an entry of another pick left. -/
theorem findStep_of_moves {s : State} {h : List HistEntry} {e : HistEntry} (hq : s.seq.state ≠ .running)
    (ht : s.hcc.isTaking = false) (hh : s.seq.history = h ++ [e]) (hc : s.seq.cursor ≠ some e.cursor) :
    findStep s = expanding e.cursor (unwind e (endPresent s)) := by
  have hw := endPresent_seq s
  have htw : (endPresent s).hcc.isTaking = false := (endPresent_isTaking s).trans ht
  obtain ⟨hx, hu, -⟩ := unwind_of_moves (e := e) (s := endPresent s) (by rw [hw]; exact hc) htw
  have hqu := unwind_seq e (endPresent s)
  have hend : endPresent (unwind e (endPresent s)) = unwind e (endPresent s) := by
    have hp : (unwind e (endPresent s)).seq.present = none := by rw [hqu, hw]
    rw [endPresent, hp]
  rw [findStep_of_not_taking ht, hh, List.getLast?_concat, Option.elim_some, orderPresent_of_discardable (c := e.cursor), hend]
  · rw [hqu, hw]
    exact hq
  · rw [hqu]
  · exact hu
  · exact fun _ => by rw [hx]

/-- Settles O50: the crossing brings one find step, which unwinds the newest entry and orders its pick, or meets the end of
the history. -/
theorem findStepUnwindsNewestEntry : Obligations.FindStepUnwindsNewestEntry := by
  intro s c hq hg ht hm hl hi hc
  obtain ⟨a, k, he⟩ := exec_reverseCrossing_finding hq hm hl hi
  obtain ⟨u, hu⟩ : ∃ u : State, u = { s with ang := a, draws := k } := ⟨_, rfl⟩
  obtain ⟨w, hw⟩ : ∃ w : State, w = endPresent u := ⟨_, rfl⟩
  rw [← hu] at he
  have htu : u.hcc.isTaking = false := by rw [hu]; exact (isTaking_eq_false_iff s).2 ht
  have hwq : w.seq = { s.seq with present := none } := by rw [hw, endPresent_seq, hu]
  have hwk : Kept u w := by rw [hw]; exact kept_endPresent u
  have hwc : w.chu = s.chu := hwk.chu.trans (by rw [hu])
  refine ⟨fun hh hen => ?_, fun h e hh hne => ?_⟩
  · have hf : findStep u = trigger .historyEnd w := by
      rw [findStep_of_not_taking htu, hu]
      simp only [hh]
      rw [hw, hu]
      rfl
    have hwg : w.seq.state.guarded := by rw [hwq]; exact .inr (.inr (.inr (.inr hq)))
    have hwe : w.grd.isEnabled .historyEnd = true := by
      rw [hw, (presented_endPresent u).grd, hu]
      exact hen
    have hheld := heldBy_trigger_taken hwg hwe
    refine ⟨findStep u, he, ?_⟩
    rw [hf]
    exact ⟨hheld.state, hheld.cause, by rw [trigger_seq_cursor, hwq]; exact hc, by rw [trigger_seq_history, hwq]; exact hh,
      by rw [trigger_chu, hwc]⟩
  · have hcu : u.seq.cursor ≠ some e.cursor := by
      rw [hu]
      show s.seq.cursor ≠ _
      rw [hc]
      exact fun k => hne (Option.some.inj k).symm
    have hf : findStep u = expanding e.cursor (unwind e w) := by
      rw [hw]
      exact findStep_of_moves (by rw [hu]; show s.seq.state ≠ _; rw [hq]; decide) htu (by rw [hu]; exact hh) hcu
    obtain ⟨hx, -, hlat, hcen, hfeed⟩ := unwind_of_moves (e := e) (s := w) (by rw [hwq]; rw [hu] at hcu; exact hcu)
      (by rw [hw, endPresent_isTaking]; exact htu)
    obtain ⟨hl1, hl2⟩ := endPresent_hcc u
    rw [← hw] at hl1 hl2
    have huh : u.hcc = s.hcc := by rw [hu]
    have hseq : (unwind e w).seq = { s.seq with
        present := none, woven := s.seq.woven - 1, cursor := some e.cursor, serial := e.cursor.serial, history := h } := by
      rw [unwind_seq, hwq]
      simp only [hh, List.dropLast_concat]
    have hchu : (expanding e.cursor (unwind e w)).chu = (unwindChanges e w).chu := unwind_chu e w
    have hplk : (expanding e.cursor (unwind e w)).plk = (unwindChanges e w).plk := unwind_plk e w
    rw [unwindChanges_plk] at hplk
    rw [unwindChanges_chu, hwc] at hchu
    have hqueue : (expanding e.cursor (unwind e w)).chu.queue = e.counted.elim id giveBackCount (e.applied.elim s.chu.queue
        fun a => a.restored :: if s.chu.queue.length < 4 then s.chu.queue else s.chu.queue.dropLast) := by
      rw [hchu]
      rfl
    refine ⟨findStep u, he, ?_⟩
    rw [hf]
    refine ⟨?_, ?_, ?_, ?_, ?_, ?_, ?_, hlat.trans (hl1.trans (by rw [huh])), ?_, fun k => ?_, fun ha hn => ?_,
      fun a ha hn => ⟨?_, _, rfl, ?_⟩, fun a i ha hn => ⟨_, rfl, ?_⟩, fun hp hxs => ⟨_, rfl, ?_⟩, fun a q x ha hqx hlen => ?_,
      fun i x q m r ha hn hqx hxm hxr => ?_⟩
    · exact (congrArg Seq.state hseq).trans hq
    · exact congrArg Seq.cursor hseq
    · exact congrArg Seq.serial hseq
    · exact congrArg Seq.history hseq
    · exact congrArg Seq.woven hseq
    · rfl
    · show some (⟨.present, e.cursor, 128 * (unwind e w).hcc.census⟩ : Job) = _
      rw [hcen, hl2, huh]
    · show ((unwind e w).wft.choose ((unwind e w).cardOf e.cursor).weft).wft.feeders = _
      obtain ⟨g, hg⟩ := choose_wft (unwind e w).wft ((unwind e w).cardOf e.cursor).weft
      rw [hg]
      exact hfeed.trans (hwk.feeders.trans (by rw [hu]))
    · rw [hchu, get_uncountHits]
    · rw [hqueue, ha, hn]
      rfl
    · rw [hplk, ha]
      exact changeRestored_restoreChange a w
    · rw [hqueue, ha, hn]
      rfl
    · rw [hqueue, ha, hn]
      exact giveBackCount_restored a i _
    · have hwu : w = u := by
        rw [hw, endPresent, hu]
        simp only [hp]
      have hux : u.xpe = ⟨none, .empty⟩ := by rw [hu]; exact hxs
      obtain ⟨-, -, hwft, -⟩ := unwind_of_staging_empty e (s := w) (by rw [hwu, hux]) (by rw [hwu]; exact htu)
      have hcard : (unwind e w).cardOf e.cursor = s.cardOf e.cursor := by
        rw [State.cardOf, design_unwind, hwu, hu]
        rfl
      show ((unwind e w).wft.choose ((unwind e w).cardOf e.cursor).weft).wft = _
      rw [hcard, hwft, hwu, hu]
      cases e.group <;> rfl
    · rw [hplk, ha]
      exact changeDropped_restoreChange a (by rw [hwc, hqx]) hlen
    · rw [hqueue, ha, hn]
      show giveBackCount i s.chu.queue = _
      rw [hqx]
      exact giveBackCount_atCount hxm hxr i q

end Sys2Proof.Machine
end

section
/-! PROOFS. The encoder step (R1 to R6, R8, R10, R11, R13, R137, R138). -/

namespace Sys2Proof.Machine

/-! ### The library, the map, the blocks of the store and the commands that wait -/

/-- What no step of the shaft touches. -/
def State.wares (s : State) : Vector Weave 32 × Hmp × Vector (Option (Fin 8)) 256 × Nat × List Instr :=
  (s.wlb, s.hmp, s.fst.owner, s.fst.free, s.pending)

theorem State.Recounted.wares {s t : State} (h : s.Recounted t) : t.wares = s.wares := by
  have e : t.wares = (s.wlb, s.hmp, t.fst.owner, t.fst.free, s.pending) := by
    rw [h.only]
    rfl
  rw [e, h.owner, h.free]
  rfl

theorem wares_discardStaging (s : State) : (discardStaging s).wares = s.wares := by
  unfold discardStaging
  split
  · rfl
  · split <;> rfl

theorem wares_moveCursor (c : Cursor) (s : State) : (moveCursor c s).wares = s.wares := by
  have h : (placeCursor s.seq.state c s).wares = s.wares := (recounted_placeCursor s.seq.state c s).wares
  unfold moveCursor
  dsimp only
  split
  · exact h
  · exact (wares_discardStaging _).trans h

theorem wares_commitCore (p : Plan) (s : State) : (commitCore p s).wares = s.wares := by
  have h : (recorded p s).wares = s.wares := (recounted_appendEntry (s.entryAt p) s).wares
  rw [(recounted_commitCore p s).wares, wares_moveCursor, h]

theorem wares_restoreChange (a : AppliedChange) (s : State) : (restoreChange a s).wares = s.wares := by
  by_cases hn : s.chu.queue.length < 4
  · rw [restoreChange_room a hn]
    rfl
  · obtain ⟨c, hc⟩ := exists_tail hn
    rw [restoreChange_full a hn hc]
    rfl

theorem wares_unwind (e : HistEntry) (s : State) : (unwind e s).wares = s.wares := by
  have h : (s.unwinding e).wares = s.wares := by
    show (unwindChanges e s).wares = _
    unfold unwindChanges
    cases e.applied with
    | none => rfl
    | some a => exact wares_restoreChange a s
  rw [unwind_eq, (recounted_releaseEntry ..).wares]
  exact (wares_moveCursor ..).trans h

theorem steady_wares (k : Vector Weave 32 × Hmp × Vector (Option (Fin 8)) 256 × Nat × List Instr) :
    Steady fun s => s.wares = k where
  link := fun l _ h _ _ => by cases l <;> exact h
  hcc := fun _ h _ _ _ _ => h
  wft := fun _ h _ => h
  xpe := fun _ h _ => h
  unstage := fun _ h _ _ => h
  unlatch := fun _ _ h _ _ _ _ _ => h
  grd := fun _ h _ _ => h
  ang := fun _ h _ => h
  draws := fun _ h => h
  seq := fun _ h _ _ _ _ => h
  move := fun _ h _ _ _ => h
  intoGuard := fun _ h _ _ => h
  leaveGuard := fun _ h _ _ => h
  chu := fun _ h _ => h
  stage := fun _ _ h _ _ _ => h
  latch := fun p i h hx hr => by
    unfold releaseLatched
    split
    · exact h
    · exact h
  closeReleased := fun h _ => h
  commit := fun p h _ => (wares_commitCore p _).trans h
  unwind := fun e h _ => (wares_unwind e _).trans h

/-! ### What an action leaves of the shaft -/

/-- What an action does to the tracker by itself. -/
def ShaftAction.angAfter (x : ShaftAction) (a : Ang) : Ang :=
  match x with
  | .angleFault => { a with faultTotal := raiseTo 65535 a.faultTotal }
  | .fire b => { a with armed := a.armed.filter fun y => decide (y ≠ b) }
  | .place n i l => { a with count := n, index := i, armed := l }
  | .crossing _ | .motionStarted | .reverseTravel => a

/-- The tracker after the actions `l`. -/
def angAfter (l : List ShaftAction) (a : Ang) : Ang := l.foldl (fun a x => x.angAfter a) a

theorem shaken_take (x : ShaftAction) (s : State) : { s with ang := x.angAfter s.ang }.Shaken (x.take s) := by
  cases x with
  | angleFault => exact shaken_trigger ..
  | fire a => exact shaken_scheduleEvent a _
  | place n i l => exact .refl _
  | crossing d =>
    cases d with
    | forward => exact shaken_ite (shaken_unsanctioned s) (.refl s)
    | reverse => exact shaken_ite (shaken_findStep s) (.refl s)
  | motionStarted => exact shaken_ite (shaken_unsanctioned s) (.refl s)
  | reverseTravel => exact shaken_ite (shaken_unsanctioned s) (.refl s)

theorem State.Shaken.angAfter {s t : State} (h : s.Shaken t) (x : ShaftAction) :
    { s with ang := x.angAfter s.ang }.Shaken { t with ang := x.angAfter t.ang } := by
  rcases h with ⟨ha, hq, hg, hc⟩ | ⟨hs, hq, hc, hg, ha⟩
  · exact .inl ⟨by rw [ha], hq, hg, hc⟩
  · refine .inr ⟨hs, hq, hc, hg, ?_⟩
    simp only [ha]
    cases x <;> rfl

/-- The actions `l` taken one after another. -/
def taken (l : List ShaftAction) (s : State) : State := l.foldl (fun s x => ShaftAction.take x s) s

theorem taken_append (l k : List ShaftAction) (s : State) : taken (l ++ k) s = taken k (taken l s) := List.foldl_append

theorem angAfter_append (l k : List ShaftAction) (a : Ang) : angAfter (l ++ k) a = angAfter k (angAfter l a) := List.foldl_append

theorem shaken_taken (l : List ShaftAction) : ∀ s : State,
    { s with ang := Machine.angAfter l s.ang }.Shaken (taken l s) := by
  have carried : ∀ (l : List ShaftAction) {s t : State}, s.Shaken t →
      { s with ang := Machine.angAfter l s.ang }.Shaken { t with ang := Machine.angAfter l t.ang } := by
    intro l
    induction l with
    | nil => exact id
    | cons x l ih => exact fun h => ih (h.angAfter x)
  induction l with
  | nil => exact .refl
  | cons x l ih => exact fun s => (carried l (shaken_take x s)).trans (ih _)

/-! ### The actions of a step (log 8) -/

/-- The actions whose place is free. -/
def ShaftAction.isFree : ShaftAction → Bool
  | .motionStarted => true
  | .reverseTravel => true
  | .angleFault => false
  | .fire _ => false
  | .place _ _ _ => false
  | .crossing _ => false

theorem placeFreely_filter {x : ShaftAction} (hx : x.isFree = true) (b : Bool) (r : List ShaftAction × Nat) :
    (placeFreely x b r).1.filter (fun y => !y.isFree) = r.1.filter fun y => !y.isFree := by
  unfold placeFreely
  split
  · dsimp only
    generalize r.1.findIdx ShaftAction.isPlace + 1 + _ = k
    rw [List.filter_append, List.filter_cons_of_neg (by simp [hx]), ← List.filter_append, List.take_append_drop]
  · rfl

theorem placeFreely_perm (x : ShaftAction) (b : Bool) (r : List ShaftAction × Nat) :
    (placeFreely x b r).1.Perm ((if b then [x] else []) ++ r.1) := by
  unfold placeFreely
  split
  · dsimp only
    generalize r.1.findIdx ShaftAction.isPlace + 1 + _ = k
    refine List.perm_middle.trans (List.Perm.cons x ?_)
    rw [List.take_append_drop]
    exact .refl _
  · exact .refl _

/-- The free actions of a step. -/
def Ang.free (a : Ang) (d : Dir) (encz : Bool) : List ShaftAction :=
  (if a.reachesReverse d then [.reverseTravel] else []) ++
    if a.startsMotion (countAfter a.count (a.ordered d encz)) then [.motionStarted] else []

theorem actions_perm (a : Ang) (d : Dir) (encz : Bool) (k : Nat) :
    (a.actions d encz k).1.Perm (a.free d encz ++ a.ordered d encz) := by
  unfold Ang.actions Ang.free
  refine (placeFreely_perm ..).trans ?_
  rw [List.append_assoc]
  exact (placeFreely_perm ..).append_left _

theorem mem_pair {α : Type} {x a b : α} : x ∈ [a, b] ↔ x = a ∨ x = b := by
  rw [List.mem_cons, List.mem_singleton]

theorem ordered_not_free (a : Ang) (d : Dir) (encz : Bool) : ∀ x ∈ a.ordered d encz, x.isFree = false := by
  have fires : ∀ l : List SchedAngle, ∀ x ∈ l.map ShaftAction.fire, x.isFree = false := fun l x hx => by
    obtain ⟨b, -, rfl⟩ := List.mem_map.1 hx
    rfl
  unfold Ang.ordered
  split
  · intro x hx
    rcases List.mem_append.1 hx with h | h
    · split at h
      · rw [List.mem_singleton.1 h]; rfl
      · split at h
        · exact fires _ x h
        · cases h
    · rcases mem_pair.1 h with rfl | rfl <;> rfl
  · unfold Ang.forwardStep
    dsimp only
    split
    · simp [ShaftAction.isFree]
    · split
      · simp [ShaftAction.isFree]
      · intro x hx
        rcases List.mem_cons.1 hx with rfl | h
        · rfl
        · exact fires _ x h
  · intro x hx
    rcases List.mem_append.1 hx with h | h
    · split at h
      · rw [List.mem_singleton.1 h]; rfl
      · cases h
    · rcases mem_pair.1 h with rfl | rfl <;> rfl
  · unfold Ang.reverseStep
    dsimp only
    split
    · simp [ShaftAction.isFree]
    · split <;> simp [ShaftAction.isFree]

theorem actions_filter (a : Ang) (d : Dir) (encz : Bool) (k : Nat) :
    (a.actions d encz k).1.filter (fun y => !y.isFree) = a.ordered d encz := by
  unfold Ang.actions
  rw [placeFreely_filter rfl, placeFreely_filter rfl]
  exact List.filter_eq_self.2 fun x hx => by rw [ordered_not_free a d encz x hx]; rfl

/-- The free actions leave the tracker. -/
theorem angAfter_filter (l : List ShaftAction) : ∀ a : Ang, angAfter (l.filter fun y => !y.isFree) a = angAfter l a := by
  induction l with
  | nil => exact fun _ => rfl
  | cons x l ih =>
    intro a
    cases x with
    | motionStarted | reverseTravel | angleFault | fire | place | crossing => exact ih _

/-- The tracker after a step, guard apart. -/
def Ang.after (a : Ang) (d : Dir) (encz : Bool) : Ang :=
  angAfter (a.ordered d encz) (a.moved d encz (countAfter a.count (a.ordered d encz)))

/-- The state in which the actions of a step begin. -/
def State.stepping (s : State) (d : Dir) (encz : Bool) : State := { s with
  ang := s.ang.moved d encz (countAfter s.ang.count (s.ang.ordered d encz)), draws := (s.ang.actions d encz s.draws).2 }

theorem exec_encoderStep (d : Dir) (encz : Bool) (s : State) :
    exec (.encoderStep d encz) s = .next (taken (s.ang.actions d encz s.draws).1 (s.stepping d encz)) := rfl

/-- Between the step and its end, guard apart, only the tracker has changed. -/
theorem shaken_encoderStep (d : Dir) (encz : Bool) (s : State) :
    { s with ang := s.ang.after d encz }.Shaken (taken (s.ang.actions d encz s.draws).1 (s.stepping d encz)) := by
  have h := shaken_taken (s.ang.actions d encz s.draws).1 (s.stepping d encz)
  rw [← angAfter_filter, actions_filter] at h
  exact h.after rfl rfl rfl rfl

/-! ### The tracker after a step -/

theorem crosses_iff (s : State) (d : Dir) (encz : Bool) :
    s.ang.crosses d encz = true ↔ s.crossesForward d encz ∨ s.crossesReverse d encz := by
  cases d <;> simp [Ang.crosses, State.crossesForward, State.crossesReverse]

theorem angAfter_fires (l : List SchedAngle) : ∀ a : Ang, angAfter (l.map .fire) a =
    { a with armed := a.armed.filter fun x => decide (x ∉ l) } := by
  induction l with
  | nil =>
    intro a
    have hf : (a.armed.filter fun x => decide (x ∉ [])) = a.armed :=
      List.filter_eq_self.2 fun x _ => decide_eq_true List.not_mem_nil
    rw [hf]
    rfl
  | cons b l ih =>
    intro a
    show angAfter (l.map .fire) { a with armed := a.armed.filter fun y => decide (y ≠ b) } = _
    rw [ih]
    have hf : (a.armed.filter fun y => decide (y ≠ b)).filter (fun x => decide (x ∉ l)) =
        a.armed.filter fun x => decide (x ∉ b :: l) := by
      rw [List.filter_filter]
      exact List.filter_congr fun x _ => by simp [Bool.and_comm]
    simp only [hf]

/-- The total of the angle faults after a step that may raise one (R6). -/
def Ang.totalAfter (a : Ang) (fault : Bool) : Nat := if fault then raiseTo 65535 a.faultTotal else a.faultTotal

/-- The actions move the count, the index state, the armed set and the total. -/
theorem angAfter_only (l : List ShaftAction) : ∀ a : Ang, angAfter l a = { a with
    count := (angAfter l a).count, index := (angAfter l a).index, armed := (angAfter l a).armed
    faultTotal := (angAfter l a).faultTotal } := by
  induction l with
  | nil => exact fun _ => rfl
  | cons x l ih =>
    intro a
    refine (ih (x.angAfter a)).trans ?_
    cases x <;> rfl

theorem angAfter_count (l : List ShaftAction) : ∀ a : Ang, (angAfter l a).count = countAfter a.count l := by
  induction l with
  | nil => exact fun _ => rfl
  | cons x l ih =>
    intro a
    refine (ih (x.angAfter a)).trans ?_
    cases x <;> rfl

/-- What the actions move. -/
def Ang.dial (a : Ang) : Int × IndexState × List SchedAngle × Nat := (a.count, a.index, a.armed, a.faultTotal)

theorem after_eq (a : Ang) (d : Dir) (encz : Bool) : a.after d encz = { a with
    dir := d
    indexLevel := encz
    rest := if decide (a.rest = .moving) || a.startsMotion (a.after d encz).count then .moving else .atRest
    settleTimer := if decide (a.rest = .moving) || a.startsMotion (a.after d encz).count then some (10 * a.sched.settle)
      else a.settleTimer
    reverseTravel := travelAfter d a.reverseTravel
    stallWatch := if a.stallWatch = .off then .off else .armed
    stallTimer := if a.stallWatch = .off then a.stallTimer else some (10 * a.sched.stall)
    count := (a.after d encz).count, index := (a.after d encz).index, armed := (a.after d encz).armed
    faultTotal := (a.after d encz).faultTotal } := by
  have hc : (a.after d encz).count = countAfter a.count (a.ordered d encz) := by
    rw [Ang.after, angAfter_count, moved_eq]
  have h := angAfter_only (a.ordered d encz) (a.moved d encz (countAfter a.count (a.ordered d encz)))
  change a.after d encz = { a.moved d encz (countAfter a.count (a.ordered d encz)) with
    count := (a.after d encz).count, index := (a.after d encz).index, armed := (a.after d encz).armed
    faultTotal := (a.after d encz).faultTotal } at h
  rw [← hc, moved_eq] at h
  exact h

section
variable {a : Ang} {encz : Bool}

theorem dial_forwardCrossing (h : a.crosses .forward encz = true) : (a.after .forward encz).dial =
    (0, .indexed, SchedAngle.all, if a.offMark .forward then raiseTo 65535 a.faultTotal else a.faultTotal) := by
  simp only [Ang.after, Ang.ordered, h, Ang.forwardCrossing, moved_eq, angAfter_append]
  cases a.offMark .forward
  · by_cases hi : a.index = .indexed
    · simp only [Bool.false_eq_true, if_false, if_pos hi, angAfter_fires]
      rfl
    · simp only [Bool.false_eq_true, if_false, if_neg hi]
      rfl
  · rfl

theorem dial_reverseCrossing (h : a.crosses .reverse encz = true) : (a.after .reverse encz).dial =
    (719, .indexed, a.armed, if a.offMark .reverse then raiseTo 65535 a.faultTotal else a.faultTotal) := by
  simp only [Ang.after, Ang.ordered, h, Ang.reverseCrossing, moved_eq, angAfter_append]
  cases a.offMark .reverse
  · rfl
  · rfl

theorem dial_unindexed (d : Dir) (h : a.crosses d encz = false) (hi : a.index = .unindexed) : (a.after d encz).dial =
    match d with
    | .forward => ((a.count + 1) % 720, .unindexed, a.armed, a.faultTotal)
    | .reverse => ((a.count - 1) % 720, .unindexed, a.rearmed ((a.count - 1) % 720), a.faultTotal) := by
  cases d <;> simp only [Ang.after, Ang.ordered, h, Ang.forwardStep, Ang.reverseStep, if_pos hi, moved_eq] <;> rfl

theorem dial_overrun (h : a.crosses .forward encz = false) (hi : a.index = .indexed) (hn : 721 < a.count + 1) :
    (a.after .forward encz).dial = ((a.count + 1) % 720, .unindexed, a.armed, raiseTo 65535 a.faultTotal) := by
  simp only [Ang.after, Ang.ordered, h, Ang.forwardStep, hi, reduceCtorEq, if_false, if_pos hn, moved_eq]
  rfl

theorem dial_underrun (h : a.crosses .reverse encz = false) (hi : a.index = .indexed) (hn : a.count - 1 < -2) :
    (a.after .reverse encz).dial =
      ((a.count - 1) % 720, .unindexed, a.rearmed ((a.count - 1) % 720), raiseTo 65535 a.faultTotal) := by
  simp only [Ang.after, Ang.ordered, h, Ang.reverseStep, hi, reduceCtorEq, if_false, if_pos hn, moved_eq]
  rfl

theorem dial_forward (h : a.crosses .forward encz = false) (hi : a.index = .indexed) (hn : ¬721 < a.count + 1) :
    (a.after .forward encz).dial = (a.count + 1, .indexed,
      a.armed.filter fun x => decide (x ∉ a.armedWhere fun y => decide (y = a.count + 1)), a.faultTotal) := by
  simp only [Ang.after, Ang.ordered, h, Ang.forwardStep, hi, reduceCtorEq, if_false, if_neg hn, moved_eq]
  show Ang.dial (angAfter _ (ShaftAction.angAfter (.place _ _ _) _)) = _
  rw [angAfter_fires]
  rfl

theorem dial_reverse (h : a.crosses .reverse encz = false) (hi : a.index = .indexed) (hn : ¬a.count - 1 < -2) :
    (a.after .reverse encz).dial = (a.count - 1, .indexed, a.rearmed (a.count - 1), a.faultTotal) := by
  simp only [Ang.after, Ang.ordered, h, Ang.reverseStep, hi, reduceCtorEq, if_false, if_neg hn, moved_eq]
  rfl

end

theorem mem_rearmed (a : Ang) (n : Int) (x : SchedAngle) :
    x ∈ a.rearmed n ↔ x ∈ a.armed ∨ n ≤ (a.sched.angle x : Int) - 3 := by
  have hall : x ∈ SchedAngle.all := by cases x <;> decide
  simp [Ang.rearmed, hall]

theorem mem_armedWhere (a : Ang) (f : Int → Bool) (x : SchedAngle) :
    x ∈ a.armedWhere f ↔ x ∈ a.armed ∧ f (a.sched.angle x) = true := by
  have hall : x ∈ SchedAngle.all := by cases x <;> decide
  simp [Ang.armedWhere, hall]

theorem farApart_iff (x y : Nat) : 3 ≤ angleDistance x y ↔ farApart x y := by
  simp only [angleDistance, Nat.le_min]

/-! ### ANGLE-FAULT -/

theorem offMark_iff (s : State) (d : Dir) : s.ang.offMark d = true ↔ s.ang.index = .indexed ∧
    match d with
    | .forward => s.ang.count < 717 ∨ 721 < s.ang.count
    | .reverse => s.ang.count < -2 ∨ 2 < s.ang.count := by
  cases d <;> simp [Ang.offMark]

theorem ordered_offMark {a : Ang} {d : Dir} {encz : Bool} (hc : a.crosses d encz = true) (ho : a.offMark d = true) :
    ∃ n i l, a.ordered d encz = [.angleFault, .place n i l, .crossing d] := by
  cases d
  · exact ⟨0, .indexed, SchedAngle.all, by simp only [Ang.ordered, hc, Ang.forwardCrossing, ho]; rfl⟩
  · exact ⟨719, .indexed, a.armed, by simp only [Ang.ordered, hc, Ang.reverseCrossing, ho]; rfl⟩

/-- R5: the count leaves its range. -/
def Ang.overruns (a : Ang) (d : Dir) : Prop :=
  a.index = .indexed ∧ match d with | .forward => 721 < a.count + 1 | .reverse => a.count - 1 < -2

theorem ordered_overruns {a : Ang} {d : Dir} {encz : Bool} (hc : a.crosses d encz = false) (ho : a.overruns d) :
    ∃ n i l, a.ordered d encz = [.place n i l, .angleFault] := by
  obtain ⟨hi, hn⟩ := ho
  cases d
  · exact ⟨_, _, _, by simp only [Ang.ordered, hc, Ang.forwardStep, hi, reduceCtorEq, if_false]; exact if_pos hn⟩
  · exact ⟨_, _, _, by simp only [Ang.ordered, hc, Ang.reverseStep, hi, reduceCtorEq, if_false]; exact if_pos hn⟩

theorem stepFaults_iff (s : State) (d : Dir) (encz : Bool) : s.stepFaults d encz ↔
    s.ang.crosses d encz = true ∧ s.ang.offMark d = true ∨ s.ang.crosses d encz = false ∧ s.ang.overruns d := by
  rw [← Bool.not_eq_true, crosses_iff, offMark_iff]
  unfold Ang.overruns State.stepFaults
  cases d <;> simp only [State.crossesForward, State.crossesReverse, reduceCtorEq, true_and, false_and, or_false, false_or] <;>
    constructor <;> grind

/-- R5, R8: a step that brings neither ANGLE-FAULT nor an event of the schedule. -/
theorem ordered_quiet {s : State} {d : Dir} {encz : Bool} (hf : ¬s.stepFaults d encz) (hn : ∀ a, ¬s.stepFires d encz a) :
    ∃ n i l, s.ang.ordered d encz = .place n i l :: if s.ang.crosses d encz then [.crossing d] else [] := by
  rw [stepFaults_iff] at hf
  have none_armed : ∀ f : Int → Bool, (∀ x ∈ s.ang.armed, f (s.ang.sched.angle x) = false) → s.ang.armedWhere f = [] :=
    fun f h => List.eq_nil_iff_forall_not_mem.2 fun x hx => by
      obtain ⟨h1, h2⟩ := (mem_armedWhere ..).1 hx
      rw [h x h1] at h2
      cases h2
  cases hc : s.ang.crosses d encz
  · have ho : ¬s.ang.overruns d := fun h => hf (.inr ⟨hc, h⟩)
    cases d with
    | forward =>
      have hx : ¬s.crossesForward .forward encz := fun h => by
        rw [(crosses_iff ..).2 (.inl h)] at hc
        cases hc
      cases hi : s.ang.index with
      | unindexed => exact ⟨_, _, _, by simp only [Ang.ordered, hc, Ang.forwardStep, hi, if_true]; rfl⟩
      | indexed =>
        have hfires := none_armed (fun x => decide (x = s.ang.count + 1)) fun x hx' => decide_eq_false fun h => by
          refine hn x ⟨rfl, hi, hx', ?_⟩
          rw [if_neg hx]
          exact h
        have hle : ¬721 < s.ang.count + 1 := fun h => ho ⟨hi, h⟩
        exact ⟨_, _, _, by
          simp only [Ang.ordered, hc, Ang.forwardStep, hi, reduceCtorEq, if_false, if_neg hle, hfires]
          rfl⟩
    | reverse =>
      cases hi : s.ang.index with
      | unindexed => exact ⟨_, _, _, by simp only [Ang.ordered, hc, Ang.reverseStep, hi, if_true]; rfl⟩
      | indexed =>
        have hle : ¬s.ang.count - 1 < -2 := fun h => ho ⟨hi, h⟩
        exact ⟨_, _, _, by
          simp only [Ang.ordered, hc, Ang.reverseStep, hi, reduceCtorEq, if_false, if_neg hle]
          rfl⟩
  · have ho : s.ang.offMark d = false := Bool.eq_false_iff.2 fun h => hf (.inl ⟨hc, h⟩)
    cases d with
    | forward =>
      have hx : s.crossesForward .forward encz := (crosses_forward_iff s encz).1 hc
      by_cases hi : s.ang.index = .indexed
      · have hfires := none_armed (fun x => decide (s.ang.count < x)) fun x hx' => decide_eq_false fun h => by
          refine hn x ⟨rfl, hi, hx', ?_⟩
          rw [if_pos hx]
          exact h
        exact ⟨_, _, _, by simp only [Ang.ordered, hc, Ang.forwardCrossing, ho, hi, hfires]; rfl⟩
      · exact ⟨_, _, _, by simp only [Ang.ordered, hc, Ang.forwardCrossing, ho, if_neg hi]; rfl⟩
    | reverse => exact ⟨_, _, _, by simp only [Ang.ordered, hc, Ang.reverseCrossing, ho]; rfl⟩

/-! ### ANGLE-FAULT in a state that it can hold (R3 to R6, R164, R166) -/

theorem unsanctioned_loaded {s : State} (h : s.seq.state ≠ .unloaded) :
    unsanctioned s = trigger .unsanctionedMotion (raise .p .unsanctionedMotion s) := by
  rw [unsanctioned]
  exact if_neg h

/-- An action that ANGLE-FAULT may have to wait for or that comes after it. -/
def ShaftAction.inOverrun : ShaftAction → Bool
  | .angleFault => true
  | .place _ _ _ => true
  | .motionStarted => true
  | .reverseTravel => true
  | .fire _ => false
  | .crossing _ => false

theorem loaded_unsanctioned {s : State} (h : s.seq.state ≠ .unloaded) (he : s.grd.isEnabled .angleFault = true) :
    (unsanctioned s).seq.state ≠ .unloaded ∧ (unsanctioned s).grd.isEnabled .angleFault = true := by
  rw [unsanctioned_loaded h]
  refine ⟨trigger_loaded (by rw [raise_seq]; exact h), ?_⟩
  rw [Grd.isEnabled, trigger_grd_enabled, raise_grd]
  exact he

theorem inGuardFor_unsanctioned {x : Trigger} {s : State} (h : s.InGuardFor x) : (unsanctioned s).InGuardFor x := by
  have hr : (raise .p .unsanctionedMotion s).InGuardFor x := by
    rw [State.InGuardFor, raise_seq, raise_grd]
    exact h
  rw [unsanctioned_loaded (by rcases h.1 with k | k <;> rw [k] <;> decide)]
  exact inGuardFor_triggerWhen_keeps true hr

theorem inGuardFor_overrun {x : ShaftAction} (hx : x.inOverrun = true) {s : State} (h : s.InGuardFor .angleFault) :
    (x.take s).InGuardFor .angleFault := by
  cases x with
  | angleFault => exact inGuardFor_triggerWhen_keeps (s := { s with
      ang := { s.ang with faultTotal := raiseTo 65535 s.ang.faultTotal } }) true h
  | place n i l => exact h
  | motionStarted =>
    unfold ShaftAction.take judgeMotion
    dsimp only
    split
    · exact inGuardFor_unsanctioned h
    · exact h
  | reverseTravel =>
    unfold ShaftAction.take judgeReverse
    dsimp only
    split
    · exact inGuardFor_unsanctioned h
    · exact h
  | fire | crossing => cases hx

theorem taken_inGuardFor (l : List ShaftAction) : ∀ {s : State}, (∀ x ∈ l, x.inOverrun = true) → s.InGuardFor .angleFault →
    (taken l s).InGuardFor .angleFault := by
  induction l with
  | nil => exact fun _ h => h
  | cons x l ih =>
    exact fun hl h => ih (fun y hy => hl y (List.mem_cons_of_mem _ hy)) (inGuardFor_overrun (hl x List.mem_cons_self) h)

/-- R6: ANGLE-FAULT holds guard after a step that overruns, wherever the free actions come. -/
theorem taken_overrun (l : List ShaftAction) : ∀ {s : State}, (∀ x ∈ l, x.inOverrun = true) → .angleFault ∈ l →
    s.seq.state ≠ .unloaded → s.grd.isEnabled .angleFault = true → (taken l s).InGuardFor .angleFault := by
  induction l with
  | nil => exact fun _ h => absurd h List.not_mem_nil
  | cons x l ih =>
    intro s hl hm hq he
    have hl' : ∀ y ∈ l, y.inOverrun = true := fun y hy => hl y (List.mem_cons_of_mem _ hy)
    have later : x ≠ .angleFault → .angleFault ∈ l := fun hne =>
      (List.mem_cons.1 hm).resolve_left fun h => hne h.symm
    cases x with
    | angleFault => exact taken_inGuardFor l hl' (inGuardFor_trigger hq he)
    | place n i k => exact ih hl' (later nofun) hq he
    | motionStarted =>
      show (taken l (judgeMotion s)).InGuardFor _
      unfold judgeMotion
      split
      · obtain ⟨h1, h2⟩ := loaded_unsanctioned hq he
        exact ih hl' (later nofun) h1 h2
      · exact ih hl' (later nofun) hq he
    | reverseTravel =>
      show (taken l (judgeReverse s)).InGuardFor _
      unfold judgeReverse
      split
      · obtain ⟨h1, h2⟩ := loaded_unsanctioned hq he
        exact ih hl' (later nofun) h1 h2
      · exact ih hl' (later nofun) hq he
    | fire | crossing => exact absurd (hl _ List.mem_cons_self) nofun

/-- After a guard entry an action that raises no event moves the tracker only. -/
theorem taken_of_heldBy {y : Trigger} (l : List ShaftAction) : ∀ {s : State},
    (∀ x ∈ l, x ≠ .angleFault ∧ ∀ a, x ≠ .fire a) → s.HeldBy y → taken l s = { s with ang := angAfter l s.ang } := by
  induction l with
  | nil => exact fun _ _ => rfl
  | cons x l ih =>
    intro s hl h
    have hx : x.take s = { s with ang := x.angAfter s.ang } := by
      cases x with
      | angleFault => exact absurd rfl (hl _ List.mem_cons_self).1
      | fire a => exact absurd rfl ((hl _ List.mem_cons_self).2 a)
      | place n i k => rfl
      | crossing d =>
        have hne : s.seq.state ≠ .finding := by rcases h.state with k | k <;> rw [k] <;> decide
        cases d
        · exact if_neg fun k => hne k.1
        · exact if_neg hne
      | motionStarted => exact if_neg fun k => absurd (h.coasting.symm.trans k.2.1) (by decide)
      | reverseTravel =>
        refine if_neg fun k => ?_
        rcases h.state with e | e <;> rw [e] at k <;> exact absurd k.1 (by decide)
    show taken l (x.take s) = _
    rw [hx]
    exact ih (s := { s with ang := x.angAfter s.ang }) (fun y hy => hl y (List.mem_cons_of_mem _ hy)) ⟨h.state, h.cause, h.coasting⟩

end Sys2Proof.Machine
end

section
/-! PROOFS. The judgement of motion at an encoder step (R137, R138), and the encoder step as a whole. -/

namespace Sys2Proof.Machine

/-! ### The judgement of motion -/

/-- The motion that `x` reports is unsanctioned (R137). -/
def ShaftAction.Judges (x : ShaftAction) (s : State) : Prop :=
  match x with
  | .crossing .forward => s.seq.state = .finding ∧ s.seq.grant = .find
  | .crossing .reverse => False
  | .motionStarted => s.seq.grant = .none ∧ s.seq.coasting = false ∧ s.seq.runDown = false
  | .reverseTravel => s.seq.state = .running ∧ s.seq.grant = .forward
  | .angleFault => False
  | .fire _ => False
  | .place _ _ _ => False

/-- The actions of a step after the count, where it raises neither ANGLE-FAULT nor an event nor a find step. -/
def ShaftAction.Judging (x : ShaftAction) (s : State) : Prop :=
  x = .motionStarted ∨ x = .reverseTravel ∨ x = .crossing .forward ∨ x = .crossing .reverse ∧ s.seq.state ≠ .finding

theorem take_of_judges {x : ShaftAction} {s : State} (h : x.Judges s) : x.take s = unsanctioned s := by
  cases x with
  | crossing d =>
    cases d
    · exact if_pos h
    · exact h.elim
  | motionStarted => exact if_pos h
  | reverseTravel => exact if_pos h
  | angleFault | fire | place => exact h.elim

theorem take_of_not_judges {x : ShaftAction} {s : State} (hx : x.Judging s) (h : ¬x.Judges s) : x.take s = s := by
  rcases hx with rfl | rfl | rfl | ⟨rfl, hq⟩
  · exact if_neg h
  · exact if_neg h
  · exact if_neg h
  · exact if_neg hq

/-- R137: at most one of the reports is judged. -/
theorem judges_unique {x y : ShaftAction} {s : State} (hx : x.Judges s) (hy : y.Judges s) : x = y := by
  have grants : ∀ {z : ShaftAction}, z.Judges s → (s.seq.grant = .find ∧ z = .crossing .forward) ∨
      (s.seq.grant = .none ∧ z = .motionStarted) ∨ (s.seq.grant = .forward ∧ z = .reverseTravel) := by
    intro z hz
    cases z with
    | crossing d =>
      cases d
      · exact .inl ⟨hz.2, rfl⟩
      · exact hz.elim
    | motionStarted => exact .inr (.inl ⟨hz.1, rfl⟩)
    | reverseTravel => exact .inr (.inr ⟨hz.2, rfl⟩)
    | angleFault | fire | place => exact hz.elim
  rcases grants hx with ⟨g, rfl⟩ | ⟨g, rfl⟩ | ⟨g, rfl⟩ <;> rcases grants hy with ⟨k, rfl⟩ | ⟨k, rfl⟩ | ⟨k, rfl⟩ <;>
    first | rfl | cases g.symm.trans k

theorem kept_unsanctioned (s : State) : Kept s (unsanctioned s) := by
  unfold unsanctioned
  exact kept_ite (kept_raise ..) ((kept_raise ..).trans (kept_trigger ..))

theorem judges_of_unsanctioned {x : ShaftAction} {s : State} (h : x.Judges (unsanctioned s)) : x.Judges s := by
  have hr := (kept_unsanctioned s).runDown
  rcases shaken_unsanctioned s with ⟨-, hq, hg, hc⟩ | ⟨-, hq, hc, -⟩
  · cases x with
    | crossing d =>
      cases d
      · exact ⟨hq ▸ h.1, hg ▸ h.2⟩
      · exact h
    | motionStarted => exact ⟨hg ▸ h.1, hc ▸ h.2.1, hr ▸ h.2.2⟩
    | reverseTravel => exact ⟨hq ▸ h.1, hg ▸ h.2⟩
    | angleFault | fire | place => exact h
  · have hne : ∀ q, q ≠ .guard → q ≠ .halted → (unsanctioned s).seq.state ≠ q := fun q h1 h2 => by
      rcases hq with k | k <;> rw [k]
      · exact h1.symm
      · exact h2.symm
    cases x with
    | crossing d =>
      cases d
      · exact absurd h.1 (hne _ nofun nofun)
      · exact h
    | motionStarted => exact absurd (hc.symm.trans h.2.1) (by decide)
    | reverseTravel => exact absurd h.1 (hne _ nofun nofun)
    | angleFault | fire | place => exact h

theorem judging_unsanctioned {x : ShaftAction} {s : State} (h : x.Judging s) : x.Judging (unsanctioned s) := by
  refine h.imp_right (.imp_right (.imp_right fun ⟨hx, hq⟩ => ⟨hx, ?_⟩))
  rcases shaken_unsanctioned s with ⟨-, k, -⟩ | ⟨-, k | k, -⟩
  · rw [k]
    exact hq
  · rw [k]
    decide
  · rw [k]
    decide

theorem taken_quiet (l : List ShaftAction) {s : State} (hl : ∀ x ∈ l, x.Judging s) (h : ∀ x ∈ l, ¬x.Judges s) : taken l s = s := by
  induction l with
  | nil => rfl
  | cons x l ih =>
    show taken l (x.take s) = s
    rw [take_of_not_judges (hl x List.mem_cons_self) (h x List.mem_cons_self)]
    exact ih (fun y hy => hl y (List.mem_cons_of_mem _ hy)) fun y hy => h y (List.mem_cons_of_mem _ hy)

/-- R137: the report that is judged is answered once. -/
theorem taken_judged (l : List ShaftAction) {s : State} (hn : l.Nodup) (hl : ∀ x ∈ l, x.Judging s)
    (h : ∃ x ∈ l, x.Judges s) : taken l s = unsanctioned s := by
  induction l with
  | nil => exact absurd h (by simp)
  | cons x l ih =>
    have hl' : ∀ y ∈ l, y.Judging s := fun y hy => hl y (List.mem_cons_of_mem _ hy)
    obtain ⟨hx, hn⟩ := List.nodup_cons.1 hn
    show taken l (x.take s) = _
    by_cases hj : x.Judges s
    · rw [take_of_judges hj]
      exact taken_quiet l (fun y hy => judging_unsanctioned (hl' y hy)) fun y hy k =>
        hx (judges_unique hj (judges_of_unsanctioned k) ▸ hy)
    · rw [take_of_not_judges (hl x List.mem_cons_self) hj]
      obtain ⟨y, hy, hyj⟩ := h
      exact ih hn hl' ⟨y, (List.mem_cons.1 hy).resolve_left fun k => hj (k ▸ hyj), hyj⟩

/-! ### The reports of a step -/

/-- What follows the count in a step without ANGLE-FAULT and events. -/
def Ang.reports (a : Ang) (d : Dir) (encz : Bool) : List ShaftAction :=
  a.free d encz ++ if a.crosses d encz then [.crossing d] else []

theorem nodup_reports (a : Ang) (d : Dir) (encz : Bool) : (a.reports d encz).Nodup := by
  unfold Ang.reports Ang.free
  cases a.reachesReverse d <;> cases a.startsMotion _ <;> cases a.crosses d encz <;> simp

theorem mem_reports (a : Ang) (d : Dir) (encz : Bool) (x : ShaftAction) : x ∈ a.reports d encz ↔
    x = .reverseTravel ∧ a.reachesReverse d = true ∨
    x = .motionStarted ∧ a.startsMotion (countAfter a.count (a.ordered d encz)) = true ∨
    x = .crossing d ∧ a.crosses d encz = true := by
  unfold Ang.reports Ang.free
  cases a.reachesReverse d <;> cases a.startsMotion _ <;> cases a.crosses d encz <;> simp

theorem actions_quiet {s : State} {d : Dir} {encz : Bool} (hf : ¬s.stepFaults d encz) (hn : ∀ a, ¬s.stepFires d encz a) (k : Nat) :
    ∃ n i l post, (s.ang.actions d encz k).1 = .place n i l :: post ∧ post.Perm (s.ang.reports d encz) ∧
      countAfter s.ang.count (s.ang.ordered d encz) = n := by
  obtain ⟨n, i, l, ho⟩ := ordered_quiet hf hn
  have hpost : ∀ x ∈ (if s.ang.crosses d encz then [ShaftAction.crossing d] else []), x.isPlace = false := by
    intro x hx
    split at hx
    · rw [List.mem_singleton.1 hx]; rfl
    · cases hx
  have hp : placesAfter [] n i l (s.ang.ordered d encz) := ⟨_, ho, hpost⟩
  have hnil : ∀ x ∈ ([] : List ShaftAction), x.isPlace = false := by simp
  obtain ⟨post, hr, -⟩ : placesAfter [] n i l (s.ang.actions d encz k).1 :=
    placesAfter_placeFreely hnil _ rfl _ (placesAfter_placeFreely hnil _ rfl _ hp)
  refine ⟨n, i, l, post, hr, ?_, ?_⟩
  · have hperm := actions_perm s.ang d encz k
    rw [hr, ho] at hperm
    exact List.Perm.cons_inv (hperm.trans List.perm_middle)
  · rw [ho]
    cases s.ang.crosses d encz <;> rfl

/-! ### What the dial shows after a step -/

theorem dial_eq {b : Ang} {n : Int} {i : IndexState} {l : List SchedAngle} {k : Nat} (h : b.dial = (n, i, l, k)) :
    b.count = n ∧ b.index = i ∧ b.armed = l ∧ b.faultTotal = k := by
  simpa only [Ang.dial, Prod.mk.injEq] using h

theorem not_crosses {s : State} {d : Dir} {encz : Bool} (h1 : ¬s.crossesForward d encz) (h2 : ¬s.crossesReverse d encz) :
    s.ang.crosses d encz = false := by
  refine Bool.eq_false_iff.2 fun h => ?_
  rcases (crosses_iff s d encz).1 h with k | k
  · exact h1 k
  · exact h2 k

theorem overruns_iff (a : Ang) (d : Dir) : a.overruns d ↔ a.index = .indexed ∧
    match d with | .forward => 721 < a.count + 1 | .reverse => a.count - 1 < -2 := Iff.rfl

/-- R6: the total counts a step that faults. -/
theorem after_faultTotal (s : State) (d : Dir) (encz : Bool) : (s.ang.after d encz).faultTotal =
    if s.stepFaults d encz ∧ s.ang.faultTotal < 65535 then s.ang.faultTotal + 1 else s.ang.faultTotal := by
  have total : (s.ang.after d encz).faultTotal =
      if s.stepFaults d encz then raiseTo 65535 s.ang.faultTotal else s.ang.faultTotal := by
    by_cases hf : s.stepFaults d encz
    · rw [if_pos hf]
      rcases (stepFaults_iff ..).1 hf with ⟨hc, ho⟩ | ⟨hc, hi, hn⟩
      · cases d
        · exact (dial_eq (dial_forwardCrossing hc)).2.2.2.trans (if_pos ho)
        · exact (dial_eq (dial_reverseCrossing hc)).2.2.2.trans (if_pos ho)
      · cases d
        · exact (dial_eq (dial_overrun hc hi hn)).2.2.2
        · exact (dial_eq (dial_underrun hc hi hn)).2.2.2
    · rw [if_neg hf]
      rw [stepFaults_iff] at hf
      cases hc : s.ang.crosses d encz
      · have ho : ¬s.ang.overruns d := fun k => hf (.inr ⟨hc, k⟩)
        cases hi : s.ang.index with
        | unindexed =>
          have h := dial_unindexed d hc hi
          cases d <;> exact (dial_eq h).2.2.2
        | indexed =>
          cases d
          · exact (dial_eq (dial_forward hc hi fun k => ho ⟨hi, k⟩)).2.2.2
          · exact (dial_eq (dial_reverse hc hi fun k => ho ⟨hi, k⟩)).2.2.2
      · have ho : ¬s.ang.offMark d = true := fun k => hf (.inl ⟨hc, k⟩)
        cases d
        · exact (dial_eq (dial_forwardCrossing hc)).2.2.2.trans (if_neg ho)
        · exact (dial_eq (dial_reverseCrossing hc)).2.2.2.trans (if_neg ho)
  rw [total]
  unfold raiseTo
  by_cases h1 : s.stepFaults d encz
  · by_cases h2 : s.ang.faultTotal < 65535
    · rw [if_pos h1, if_pos h2, if_pos ⟨h1, h2⟩]
    · rw [if_pos h1, if_neg h2, if_neg fun k => h2 k.2]
  · rw [if_neg h1, if_neg fun k => h1 k.1]

/-- R8: the armed set after a forward step. -/
theorem after_armed_forward {s : State} {encz : Bool} (hx : ¬s.crossesForward .forward encz) (hf : ¬s.stepFaults .forward encz)
    (a : SchedAngle) : a ∈ (s.ang.after .forward encz).armed ↔ a ∈ s.ang.armed ∧ ¬s.stepFires .forward encz a := by
  have hc := not_crosses hx (d := .forward) (by rintro ⟨h, -⟩; cases h)
  cases hi : s.ang.index with
  | unindexed =>
    rw [(dial_eq (dial_unindexed .forward hc hi)).2.2.1]
    exact ⟨fun h => ⟨h, fun k => absurd (hi.symm.trans k.2.1) (by decide)⟩, fun h => h.1⟩
  | indexed =>
    have hn : ¬721 < s.ang.count + 1 := fun k => hf ((stepFaults_iff ..).2 (.inr ⟨hc, hi, k⟩))
    rw [(dial_eq (dial_forward hc hi hn)).2.2.1, List.mem_filter, decide_eq_true_iff, mem_armedWhere, decide_eq_true_iff]
    have hfires : s.stepFires .forward encz a ↔ a ∈ s.ang.armed ∧ (s.ang.sched.angle a : Int) = s.ang.count + 1 := by
      unfold State.stepFires
      rw [if_neg hx]
      exact ⟨fun k => ⟨k.2.2.1, k.2.2.2⟩, fun k => ⟨rfl, hi, k.1, k.2⟩⟩
    rw [hfires]

/-- R8: the armed set after a reverse step. -/
theorem after_armed_reverse {s : State} {encz : Bool} (hx : ¬s.crossesReverse .reverse encz) (a : SchedAngle) :
    a ∈ (s.ang.after .reverse encz).armed ↔
      a ∈ s.ang.armed ∨ (s.ang.after .reverse encz).count ≤ (s.ang.sched.angle a : Int) - 3 := by
  have hc := not_crosses (d := .reverse) (by rintro ⟨h, -⟩; cases h) hx
  cases hi : s.ang.index with
  | unindexed =>
    obtain ⟨h1, -, h3, -⟩ := dial_eq (dial_unindexed .reverse hc hi)
    rw [h1, h3, mem_rearmed]
  | indexed =>
    by_cases hn : s.ang.count - 1 < -2
    · obtain ⟨h1, -, h3, -⟩ := dial_eq (dial_underrun hc hi hn)
      rw [h1, h3, mem_rearmed]
    · obtain ⟨h1, -, h3, -⟩ := dial_eq (dial_reverse hc hi hn)
      rw [h1, h3, mem_rearmed]

/-- R6: the guard that ANGLE-FAULT brings. -/
theorem angleFault_encoderStep {s : State} {d : Dir} {encz : Bool} (hf : s.stepFaults d encz) (hg : s.seq.state.guarded)
    (he : s.grd.isEnabled .angleFault = true) (t : State)
    (ht : t = taken (s.ang.actions d encz s.draws).1 (s.stepping d encz)) :
    (t.seq.state = .guard ∨ t.seq.state = .halted) ∧ .angleFault ∈ t.grd.causes ∧
      (s.crossesForward d encz ∨ s.crossesReverse d encz → t.grd.entry = some
        ⟨.angleFault, s.seq.state, s.seq.cursor.map (·.serial), s.ang.angle, decide (t.seq.state = .halted)⟩) := by
  have hperm := actions_perm s.ang d encz s.draws
  have hfree : ∀ x ∈ s.ang.free d encz, x = .reverseTravel ∨ x = .motionStarted := by
    intro x hx
    rcases List.mem_append.1 hx with h | h <;> split at h
    · exact .inl (List.mem_singleton.1 h)
    · cases h
    · exact .inr (List.mem_singleton.1 h)
    · cases h
  rcases (stepFaults_iff s d encz).1 hf with ⟨hc, ho⟩ | ⟨hc, ho⟩
  · obtain ⟨n, i, l, hord⟩ := ordered_offMark hc ho
    have hpre : ∀ x ∈ [ShaftAction.angleFault], x.isPlace = false := by simp [ShaftAction.isPlace]
    have hp : placesAfter [.angleFault] n i l (s.ang.ordered d encz) := ⟨[.crossing d], hord, by simp [ShaftAction.isPlace]⟩
    obtain ⟨post, hr, hpost⟩ : placesAfter [.angleFault] n i l (s.ang.actions d encz s.draws).1 :=
      placesAfter_placeFreely hpre _ rfl _ (placesAfter_placeFreely hpre _ rfl _ hp)
    have hrest : post.Perm (s.ang.free d encz ++ [.crossing d]) := by
      rw [hr, hord] at hperm
      exact (hperm.trans (List.perm_middle.trans (List.Perm.cons _ List.perm_middle))).cons_inv.cons_inv
    obtain ⟨w, hw⟩ : ∃ w : State, w = { s.stepping d encz with ang := { (s.stepping d encz).ang with
      faultTotal := raiseTo 65535 (s.stepping d encz).ang.faultTotal } } := ⟨_, rfl⟩
    have hwg : w.seq.state.guarded := by rw [hw]; exact hg
    have hwe : w.grd.isEnabled .angleFault = true := by rw [hw]; exact he
    have hheld := heldBy_trigger_taken hwg hwe
    have htaken : t = taken (.place n i l :: post) (trigger .angleFault w) := by rw [ht, hr, hw]; rfl
    have hquiet : ∀ x ∈ ShaftAction.place n i l :: post, x ≠ .angleFault ∧ ∀ a, x ≠ .fire a := fun x hx => by
      rcases List.mem_cons.1 hx with rfl | h
      · exact ⟨nofun, nofun⟩
      · rcases List.mem_append.1 (hrest.mem_iff.1 h) with k | k
        · rcases hfree x k with rfl | rfl <;> exact ⟨nofun, nofun⟩
        · rw [List.mem_singleton.1 k]
          exact ⟨nofun, nofun⟩
    rw [taken_of_heldBy _ hquiet hheld] at htaken
    have hangle : w.ang.angle = s.ang.angle := by
      rw [hw, State.stepping, moved_eq]
      rfl
    rw [htaken]
    refine ⟨hheld.state, hheld.cause, fun _ => ?_⟩
    show (trigger .angleFault w).grd.entry = some ⟨_, _, _, _, decide ((trigger .angleFault w).seq.state = .halted)⟩
    rw [trigger_enters hwg hwe]
    have hdec : decide ((guardEntry .angleFault (countTrigger .angleFault w)).seq.state = .halted) =
        (countTrigger .angleFault w).grd.entersHalted .angleFault := by
      rw [Bool.eq_iff_iff, decide_eq_true_iff]
      exact halted_iff_entersHalted ..
    rw [hdec, guardEntry_grd, ← hangle, hw]
    rfl
  · obtain ⟨n, i, l, hord⟩ := ordered_overruns hc ho
    have hmem : ∀ x ∈ (s.ang.actions d encz s.draws).1, x.inOverrun = true := fun x hx => by
      rcases List.mem_append.1 (hperm.mem_iff.1 hx) with h | h
      · rcases hfree x h with rfl | rfl <;> rfl
      · rw [hord] at h
        rcases mem_pair.1 h with rfl | rfl <;> rfl
    have hfault : .angleFault ∈ (s.ang.actions d encz s.draws).1 :=
      hperm.mem_iff.2 (List.mem_append.2 (.inr (by rw [hord]; simp)))
    have hin := taken_overrun _ (s := s.stepping d encz) hmem hfault (SeqState.loaded_of_guarded hg) he
    rw [← ht] at hin
    refine ⟨hin.1, hin.2, fun hx => ?_⟩
    rw [(crosses_iff ..).2 hx] at hc
    cases hc

/-- R137, R138: the judgement of a step without ANGLE-FAULT, event and find step. -/
theorem judged_encoderStep {s : State} {d : Dir} {encz : Bool} (hf : ¬s.stepFaults d encz) (hn : ∀ a, ¬s.stepFires d encz a)
    (hq : s.crossesReverse d encz → s.seq.state ≠ .finding) (t : State)
    (ht : t = taken (s.ang.actions d encz s.draws).1 (s.stepping d encz)) :
    ∃ (a : Ang) (k : Nat) (u : State), u = { s with ang := a, draws := k } ∧ a.count = (s.ang.after d encz).count ∧
      (¬s.stepUnsanctioned d encz (s.ang.after d encz).angle → t = u) ∧
      (s.stepUnsanctioned d encz (s.ang.after d encz).angle → t = unsanctioned u) := by
  obtain ⟨n, i, l, post, hr, hperm, hn'⟩ := actions_quiet hf hn s.draws
  have hcount : (s.ang.after d encz).count = countAfter s.ang.count (s.ang.ordered d encz) := by
    rw [Ang.after, angAfter_count, moved_eq]
  have hplace : (s.ang.after d encz).count = n := hcount.trans hn'
  obtain ⟨u, hu⟩ : ∃ u : State, u = ShaftAction.take (.place n i l) (s.stepping d encz) := ⟨_, rfl⟩
  have htu : t = taken post u := by rw [ht, hr, hu]; rfl
  have hus : u.seq = s.seq := by rw [hu]; rfl
  have hjudging : ∀ x ∈ post, x.Judging u := fun x hx => by
    rcases (mem_reports ..).1 (hperm.mem_iff.1 hx) with ⟨rfl, -⟩ | ⟨rfl, -⟩ | ⟨rfl, hc⟩
    · exact .inr (.inl rfl)
    · exact .inl rfl
    · cases d
      · exact .inr (.inr (.inl rfl))
      · refine .inr (.inr (.inr ⟨rfl, ?_⟩))
        rw [hus]
        refine hq (((crosses_iff ..).1 hc).resolve_left ?_)
        rintro ⟨h, -⟩
        cases h
  have hjudged : (∃ x ∈ post, x.Judges u) ↔ s.stepUnsanctioned d encz (s.ang.after d encz).angle := by
    have hstart : s.ang.startsMotion (countAfter s.ang.count (s.ang.ordered d encz)) = true ↔
        s.ang.rest = .atRest ∧ farApart (s.ang.after d encz).angle s.ang.restAngle := by
      rw [← farApart_iff, Ang.angle, hcount]
      simp [Ang.startsMotion]
    have hreach : s.ang.reachesReverse d = true ↔ d = .reverse ∧ s.ang.reverseTravel = 2 := by simp [Ang.reachesReverse]
    have hcross : s.ang.crosses d encz = true ∧ (ShaftAction.crossing d).Judges u ↔
        s.crossesForward d encz ∧ s.seq.state = .finding ∧ s.seq.grant = .find := by
      rw [crosses_iff, ← hus]
      cases d
      · simp [State.crossesForward, State.crossesReverse, ShaftAction.Judges]
      · simp [State.crossesForward, ShaftAction.Judges]
    have hmem : ∀ x, x ∈ post ↔ _ := fun x => hperm.mem_iff.trans (mem_reports s.ang d encz x)
    constructor
    · rintro ⟨x, hx, hj⟩
      rcases (hmem x).1 hx with ⟨rfl, h⟩ | ⟨rfl, h⟩ | ⟨rfl, h⟩
      · obtain ⟨h1, h2⟩ := hreach.1 h
        exact .inr (.inl ⟨h1, h2, hus ▸ hj.1, hus ▸ hj.2⟩)
      · obtain ⟨h1, h2⟩ := hstart.1 h
        exact .inl ⟨h1, h2, hus ▸ hj.1, hus ▸ hj.2.1, hus ▸ hj.2.2⟩
      · exact .inr (.inr (hcross.1 ⟨h, hj⟩))
    · rintro (⟨h1, h2, hj⟩ | ⟨h1, h2, hj⟩ | h)
      · exact ⟨.motionStarted, (hmem _).2 (.inr (.inl ⟨rfl, hstart.2 ⟨h1, h2⟩⟩)), by rw [ShaftAction.Judges, hus]; exact hj⟩
      · exact ⟨.reverseTravel, (hmem _).2 (.inl ⟨rfl, hreach.2 ⟨h1, h2⟩⟩), by rw [ShaftAction.Judges, hus]; exact hj⟩
      · obtain ⟨h1, h2⟩ := hcross.2 h
        exact ⟨.crossing d, (hmem _).2 (.inr (.inr ⟨rfl, h1⟩)), h2⟩
  refine ⟨u.ang, u.draws, u, by rw [hu]; rfl, by rw [hplace, hu]; rfl, fun h => ?_, fun h => ?_⟩
  · rw [htu]
    exact taken_quiet post hjudging fun x hx k => h (hjudged.1 ⟨x, hx, k⟩)
  · rw [htu]
    exact taken_judged post (hperm.nodup_iff.2 (nodup_reports ..)) hjudging (hjudged.2 h)

/-! ### The encoder step -/

/-- The tracker of `t` is `b`, or `b` with the stall watch off. -/
structure Ang.Shows (b a : Ang) : Prop where
  dir : a.dir = b.dir
  indexLevel : a.indexLevel = b.indexLevel
  reverseTravel : a.reverseTravel = b.reverseTravel
  count : a.count = b.count
  index : a.index = b.index
  armed : a.armed = b.armed
  faultTotal : a.faultTotal = b.faultTotal
  restAngle : a.restAngle = b.restAngle
  rest : a.rest = b.rest
  settleTimer : a.settleTimer = b.settleTimer

theorem State.Shaken.shows {s t : State} (h : s.Shaken t) : s.ang.Shows t.ang := by
  rcases h with ⟨ha, -⟩ | ⟨-, -, -, -, ha⟩ <;> rw [ha] <;> exact ⟨rfl, rfl, rfl, rfl, rfl, rfl, rfl, rfl, rfl, rfl⟩

/-- R3 to R5: count and index state after a step. -/
theorem after_count (s : State) (d : Dir) (encz : Bool) :
    (d = .forward → ¬s.crossesForward d encz → s.ang.index = .indexed → s.ang.count ≤ 720 →
      (s.ang.after d encz).count = s.ang.count + 1 ∧ (s.ang.after d encz).index = .indexed) ∧
    (d = .forward → ¬s.crossesForward d encz → s.ang.index = .indexed → s.ang.count = 721 →
      (s.ang.after d encz).count = 2 ∧ (s.ang.after d encz).index = .unindexed) ∧
    (d = .reverse → ¬s.crossesReverse d encz → s.ang.index = .indexed → -1 ≤ s.ang.count →
      (s.ang.after d encz).count = s.ang.count - 1 ∧ (s.ang.after d encz).index = .indexed) ∧
    (d = .reverse → ¬s.crossesReverse d encz → s.ang.index = .indexed → s.ang.count = -2 →
      (s.ang.after d encz).count = 717 ∧ (s.ang.after d encz).index = .unindexed) := by
  refine ⟨fun hd hx hi hn => ?_, fun hd hx hi hn => ?_, fun hd hx hi hn => ?_, fun hd hx hi hn => ?_⟩ <;> subst hd
  · obtain ⟨h1, h2, -⟩ := dial_eq (dial_forward (not_crosses hx (by rintro ⟨h, -⟩; cases h)) hi (by omega))
    exact ⟨h1, h2⟩
  · obtain ⟨h1, h2, -⟩ := dial_eq (dial_overrun (not_crosses hx (by rintro ⟨h, -⟩; cases h)) hi (by omega))
    exact ⟨h1.trans (by rw [hn]; rfl), h2⟩
  · obtain ⟨h1, h2, -⟩ := dial_eq (dial_reverse (not_crosses (by rintro ⟨h, -⟩; cases h) hx) hi (by omega))
    exact ⟨h1, h2⟩
  · obtain ⟨h1, h2, -⟩ := dial_eq (dial_underrun (not_crosses (by rintro ⟨h, -⟩; cases h) hx) hi (by omega))
    exact ⟨h1.trans (by rw [hn]; rfl), h2⟩

/-- R1: an unindexed tracker counts around the circle. -/
theorem after_unindexed {s : State} {d : Dir} {encz : Bool} (h1 : ¬s.crossesForward d encz) (h2 : ¬s.crossesReverse d encz)
    (hi : s.ang.index = .unindexed) (h0 : 0 ≤ s.ang.count) (hn : s.ang.count ≤ 719) :
    (s.ang.after d encz).index = .unindexed ∧ (s.ang.after d encz).count = match d with
      | .forward => if s.ang.count = 719 then 0 else s.ang.count + 1
      | .reverse => if s.ang.count = 0 then 719 else s.ang.count - 1 := by
  have h := dial_unindexed d (not_crosses h1 h2) hi
  cases d
  · obtain ⟨hc, hx, -⟩ := dial_eq h
    refine ⟨hx, hc.trans ?_⟩
    dsimp only
    split <;> omega
  · obtain ⟨hc, hx, -⟩ := dial_eq h
    refine ⟨hx, hc.trans ?_⟩
    dsimp only
    split <;> omega

/-- R10: the rest state and the settle timer. -/
theorem after_rest (s : State) (d : Dir) (encz : Bool) :
    (s.ang.rest = .moving ∨ farApart (s.ang.after d encz).angle s.ang.restAngle →
      (s.ang.after d encz).rest = .moving ∧ (s.ang.after d encz).settleTimer = some (10 * s.ang.sched.settle)) ∧
    (s.ang.rest = .atRest → ¬farApart (s.ang.after d encz).angle s.ang.restAngle →
      (s.ang.after d encz).rest = .atRest ∧ (s.ang.after d encz).settleTimer = s.ang.settleTimer) := by
  have h := after_eq s.ang d encz
  have hstart : s.ang.startsMotion (s.ang.after d encz).count = true ↔
      s.ang.rest = .atRest ∧ farApart (s.ang.after d encz).angle s.ang.restAngle := by
    rw [← farApart_iff, Ang.angle]
    simp [Ang.startsMotion]
  have runs : (decide (s.ang.rest = .moving) || s.ang.startsMotion (s.ang.after d encz).count) = true ↔
      s.ang.rest = .moving ∨ farApart (s.ang.after d encz).angle s.ang.restAngle := by
    rw [Bool.or_eq_true, decide_eq_true_iff, hstart]
    cases s.ang.rest <;> simp
  constructor
  · intro hm
    exact ⟨(congrArg Ang.rest h).trans (if_pos (runs.2 hm)), (congrArg Ang.settleTimer h).trans (if_pos (runs.2 hm))⟩
  · intro ha hn
    have hno : ¬_ := fun k => (runs.1 k).elim (fun e => absurd (ha.symm.trans e) (by decide)) hn
    exact ⟨(congrArg Ang.rest h).trans (if_neg hno), (congrArg Ang.settleTimer h).trans (if_neg hno)⟩

/-- Settles O26: the tracker is `Ang.after`, guard apart (`shaken_encoderStep`); ANGLE-FAULT and the judgement of motion are
`angleFault_encoderStep` and `judged_encoderStep`. -/
theorem encoderStepMovesShaft : Obligations.EncoderStepMovesShaft := by
  intro d encz s
  obtain ⟨t, ht⟩ : ∃ t, t = taken (s.ang.actions d encz s.draws).1 (s.stepping d encz) := ⟨_, rfl⟩
  have hsh := shaken_encoderStep d encz s
  rw [← ht] at hsh
  have hwares : t.wares = s.wares := by
    rw [ht]
    exact (steady_wares s.wares).encoderStep d encz rfl
  have hfault := fun h1 h2 h3 => angleFault_encoderStep (d := d) (encz := encz) h1 h2 h3 t ht
  have hjudge := fun h1 h2 h3 => judged_encoderStep (d := d) (encz := encz) h1 h2 h3 t ht
  have htotal := after_faultTotal s d encz
  obtain ⟨hfwd, hover, hrev, hunder⟩ := after_count s d encz
  obtain ⟨hmoves, hrests⟩ := after_rest s d encz
  have heq := after_eq s.ang d encz
  have hdir : (s.ang.after d encz).dir = d := congrArg Ang.dir heq
  have hlevel : (s.ang.after d encz).indexLevel = encz := congrArg Ang.indexLevel heq
  have htravel : (s.ang.after d encz).reverseTravel = travelAfter d s.ang.reverseTravel := congrArg Ang.reverseTravel heq
  have hrestAngle : (s.ang.after d encz).restAngle = s.ang.restAngle := by rw [heq]
  have hwatch : (s.ang.after d encz).stallWatch = if s.ang.stallWatch = .off then .off else .armed :=
    congrArg Ang.stallWatch heq
  have htimer : (s.ang.after d encz).stallTimer =
      if s.ang.stallWatch = .off then s.ang.stallTimer else some (10 * s.ang.sched.stall) := congrArg Ang.stallTimer heq
  refine ⟨t, by rw [exec_encoderStep, ht], ?_⟩
  clear ht
  obtain ⟨kdir, klevel, ktravel, kcount, kindex, karmed, ktotal, krestAngle, krest, ksettle⟩ := hsh.shows
  dsimp only at kdir klevel ktravel kcount kindex karmed ktotal krestAngle krest ksettle
  have kangle : t.ang.angle = (s.ang.after d encz).angle := by rw [Ang.angle, kcount]; rfl
  refine ⟨kdir.trans hdir, klevel.trans hlevel, ktravel.trans (htravel.trans ?_), fun hd hl he => ?_, fun hd hl he => ?_,
    fun hd hx hi hn => ?_, fun hd hx hi hn => ?_, fun hd hx hi hn => ?_, fun hd hx hi hn => ?_, fun h1 h2 hi h0 hn => ?_,
    krestAngle.trans hrestAngle, fun h => ?_, fun h1 h2 => ?_, fun hw => ?_, fun hw hg => ?_, fun hg hq => ?_,
    fun hx => ?_, fun hd hx a => ?_, fun hd hx hf => ?_, fun hd hx hf a => ?_, ktotal.trans htotal, hfault, fun h1 h2 h3 => ?_, ?_⟩
  · cases d <;> rfl
  · subst hd
    have hc : s.ang.crosses .forward encz = true := (crosses_forward_iff s encz).2 ⟨rfl, hl, he⟩
    obtain ⟨h1, h2, h3, -⟩ := dial_eq (dial_forwardCrossing hc)
    rw [kcount, kindex, karmed, h1, h2, h3]
    exact ⟨rfl, rfl, fun a => by cases a <;> decide⟩
  · subst hd
    have hc : s.ang.crosses .reverse encz = true := (crosses_iff s .reverse encz).2 (.inr ⟨rfl, hl, he⟩)
    obtain ⟨h1, h2, -⟩ := dial_eq (dial_reverseCrossing hc)
    rw [kcount, kindex, h1, h2]
    exact ⟨rfl, rfl⟩
  · rw [kcount, kindex]
    exact hfwd hd (fun k => hx k.2) hi hn
  · rw [kcount, kindex, ktotal, htotal]
    obtain ⟨h1, h2⟩ := hover hd (fun k => hx k.2) hi hn
    have hf : s.stepFaults d encz := ⟨hi, .inr (.inr (.inl ⟨hd, fun k => hx k.2, by omega⟩))⟩
    refine ⟨h1, h2, ?_⟩
    simp only [and_iff_right hf]
  · rw [kcount, kindex]
    exact hrev hd (fun k => hx k.2) hi hn
  · rw [kcount, kindex, ktotal, htotal]
    obtain ⟨h1, h2⟩ := hunder hd (fun k => hx k.2) hi hn
    have hf : s.stepFaults d encz := ⟨hi, .inr (.inr (.inr ⟨hd, fun k => hx k.2, by omega⟩))⟩
    refine ⟨h1, h2, ?_⟩
    simp only [and_iff_right hf]
  · rw [kcount, kindex]
    cases d
    · exact after_unindexed h1 h2 hi h0 hn
    · exact after_unindexed h1 h2 hi h0 hn
  · rw [krest, ksettle]
    exact hmoves (kangle ▸ h)
  · rw [krest, ksettle]
    exact hrests h1 (kangle ▸ h2)
  · rw [if_pos hw] at hwatch htimer
    rcases hsh with ⟨ha, -⟩ | ⟨-, -, -, -, ha⟩ <;> rw [ha]
    · exact ⟨hwatch, htimer.trans⟩
    · exact ⟨rfl, fun _ => rfl⟩
  · rw [if_neg hw] at hwatch htimer
    rcases hsh with ⟨ha, -⟩ | ⟨hq, hq', -⟩
    · rw [ha]
      exact ⟨hwatch, htimer⟩
    · exact absurd ⟨hq, hq'⟩ hg
  · rcases hsh with ⟨-, hs, -⟩ | ⟨-, -, -, -, ha⟩
    · rw [hs] at hq
      have hno : s.seq.state ≠ .guard ∧ s.seq.state ≠ .halted := by
        rcases hg with k | k | k | k | k <;> rw [k] <;> decide
      exact hq.elim (fun k => absurd k hno.1) fun k => absurd k hno.2
    · rw [ha]
      exact ⟨rfl, rfl⟩
  · have hc := (crosses_iff ..).2 (.inr hx)
    obtain ⟨rfl, -⟩ := hx
    exact karmed.trans (dial_eq (dial_reverseCrossing hc)).2.2.1
  · subst hd
    rw [karmed, kcount]
    exact after_armed_reverse hx a
  · subst hd
    have hc : s.ang.crosses .forward encz = false := not_crosses hx (by rintro ⟨h, -⟩; cases h)
    have ho : s.ang.overruns .forward :=
      ((stepFaults_iff ..).1 hf).elim (fun k => absurd (hc.symm.trans k.1) (by decide)) fun k => k.2
    exact karmed.trans (dial_eq (dial_overrun hc ho.1 ho.2)).2.2.1
  · subst hd
    rw [karmed]
    exact after_armed_forward hx hf a
  · obtain ⟨a, k, u, hu, hc, hq, hj⟩ := hjudge h1 h2 h3
    rw [← kangle] at hq hj
    have hus : u.seq.state = s.seq.state := by rw [hu]
    refine ⟨a, k, u, hu, hc.trans kcount.symm, hq, fun hn hs => ?_, fun hn hs => ?_⟩
    · rw [hj hn, unsanctioned]
      exact if_pos (hus.trans hs)
    · rw [hj hn]
      exact unsanctioned_loaded (by rw [hus]; exact hs)
  · simpa only [State.wares, Prod.mk.injEq] using hwares

end Sys2Proof.Machine
end

section
/-! PROOFS. The requests that move a feeder (R76 to R79) and the plans they change (R81, R83 to R85). -/

namespace Sys2Proof.Machine

/-! ### The tables (R77 to R79) -/

theorem goIn_of_off {x : Feeder} (h : x.state = .off) (hm : x.mark = false) : x.goIn = { x with state := .ready } := by
  rw [Feeder.goIn, h, hm]
  rfl

theorem limitOk_iff (k : Option Nat) : limitOk k = true ↔ ∀ n, k = some n → 1 ≤ n ∧ n ≤ 7 := by
  cases k <;> simp [limitOk]

theorem not_limitOk {k : Option Nat} {n : Nat} (hk : k = some n) (hn : n = 0 ∨ 7 < n) : limitOk k = false := by
  refine Bool.eq_false_iff.2 fun h => ?_
  have := (limitOk_iff k).1 h n hk
  omega

theorem setLimit_eq (k : Option Nat) (s : State) :
    setLimit k s = { s with wft := { s.wft with limit := k.getD s.wft.limit } } := by cases k <;> rfl

/-! ### The change of a feeder -/

/-- The feeder's record replaced, and the limit, before the notices and plans that follow. -/
def State.refed (s : State) (f : Fin 8) (x : Feeder) (k : Nat) : State :=
  { s with wft := { s.wft with feeders := upd s.wft.feeders f x, limit := k } }

/-- The limit that a request carries. -/
def State.limited (s : State) (k : Nat) : State := { s with wft := { s.wft with limit := k } }

section
variable {f : Fin 8} {g : Feeder → Feeder} {s : State}

theorem changeFeeder_leaves (h : (s.wft.feeders.get f).state = .ready) (hn : (g (s.wft.feeders.get f)).state ≠ .ready) :
    changeFeeder f g s =
      replanFrom f (raise .p .feederStateChanged (s.refed f (g (s.wft.feeders.get f)) s.wft.limit)) := by
  unfold changeFeeder
  dsimp only
  rw [if_neg (by rw [h]; exact hn.symm), if_pos h]
  rfl

theorem changeFeeder_enters (h : (s.wft.feeders.get f).state ≠ .ready) (hn : (g (s.wft.feeders.get f)).state = .ready) :
    changeFeeder f g s = fillPlans (raise .p .feederStateChanged (s.refed f (g (s.wft.feeders.get f)) s.wft.limit)) := by
  unfold changeFeeder
  dsimp only
  rw [if_neg (by rw [hn]; exact h), if_neg h, if_pos hn]
  rfl

theorem feederStateChanged_changeFeeder (h : (g (s.wft.feeders.get f)).state ≠ (s.wft.feeders.get f).state) :
    .feederStateChanged ∈ (changeFeeder f g s).plk.notices := by
  have hr : ∀ u : State, .feederStateChanged ∈ (raise .p .feederStateChanged u).plk.notices := fun u => by simp
  unfold changeFeeder
  dsimp only
  rw [if_neg h.symm]
  split
  · exact ((kept_replanFrom ..).links .p).notices _ (hr _)
  · split
    · exact ((kept_fillPlans ..).links .p).notices _ (hr _)
    · exact hr _

end

theorem changeFeeder_id (f : Fin 8) (s : State) : changeFeeder f id s = s := by
  rw [changeFeeder_quiet rfl]
  show ({ s with wft := { s.wft with feeders := upd s.wft.feeders f (s.wft.feeders.get f) } } : State) = s
  rw [upd_get]

section
variable {c : Instr} {l : LinkId} {r : Request} {owner : State → State × Reply} {s : State} {f : Fin 8} {g : Feeder → Feeder}
  {k : Nat} (hc : served c = some ⟨l, r, .good, owner⟩) (ho : (s.link l).isOpen = true) (hl : r.onLink l = true)
  (hw : owner (s.awaited l r) = accept (changeFeeder f g ((s.limited k).awaited l r)) [])
include hc ho hl hw

/-- A request that moves a feeder: its answer, after all that the move brings. -/
theorem exec_changeFeeder : exec c s = .next ((changeFeeder f g ((s.limited k).awaited l r)).answeredLate l .ok []) ∧
    (((changeFeeder f g ((s.limited k).awaited l r)).answeredLate l .ok []).link l).response = some ⟨.ok, []⟩ :=
  exec_accepts hc ho hl hw (changeFeeder_kept ..) (by cases l <;> rfl)

/-- R76 to R79: what a request that moves a feeder leaves. -/
theorem feederBecomes_changeFeeder : ∃ t : State, exec c s = .next t ∧ s.feederBecomes t l r f (g (s.wft.feeders.get f)) k := by
  obtain ⟨he, hresp⟩ := exec_changeFeeder hc ho hl hw
  obtain ⟨v, hv⟩ : ∃ v : State, v = (s.limited k).awaited l r := ⟨_, rfl⟩
  have hvw : v.wft = { s.wft with limit := k } := by rw [hv]; cases l <;> rfl
  have hvf : v.wft.feeders = s.wft.feeders := by rw [hvw]
  have hk := changeFeeder_kept f g v
  have hwft : ∀ u : State, (u.answeredLate l .ok []).wft = u.wft := fun u => by simp
  have hfeeders : (changeFeeder f g v).wft.feeders = upd s.wft.feeders f (g (s.wft.feeders.get f)) := by
    rw [hk.feeders, ← hvf]
    rfl
  rw [← hv] at he hresp
  refine ⟨_, he, ?_, fun i hi => ?_, ?_, fun hne => ?_, fun hq => ?_, hresp, ?_⟩
  · rw [hwft, hfeeders, get_upd]
  · rw [hwft, hfeeders, get_upd_ne _ _ hi]
  · rw [hwft, hk.limit]
    exact congrArg Wft.limit hvw
  · exact ((kept_answer l _ _).links .p).notices _ (feederStateChanged_changeFeeder (by rw [hvf]; exact hne))
  · rw [changeFeeder_quiet (by rw [hvf]; exact hq), hv]
    have hsup : ((s.refed f (g (s.wft.feeders.get f)) k).link l).suppressed = false := by
      have := ((isOpen_iff _).1 ho).2.2
      cases l <;> exact this
    refine Eq.trans ?_ (answer_awaited hsup r .ok [])
    cases l <;> rfl
  · have hu := kept_answer l ⟨.ok, []⟩ (changeFeeder f g v)
    refine ⟨(hu.cursor.trans hk.cursor).trans ?_, (hu.history.trans hk.history).trans ?_, (hu.chu.trans hk.chu).trans ?_,
      (hu.hmp.trans hk.hmp).trans ?_, (hu.wlb.trans hk.wlb).trans ?_⟩ <;> rw [hv] <;> cases l <;> rfl

end

/-! ### The owners of the requests -/

/-- What a service choice makes of a feeder (R77). -/
def Service.acts : Service → Feeder → Feeder
  | .into => Feeder.goIn
  | .out => Feeder.goOut
  | .keep => id

theorem Service.acts_eq (c : Service) (x : Feeder) : Service.acts c x = { x with state := (match c, x.state, x.mark with
    | .into, .off, false => .ready
    | .into, .off, true => .suspended
    | .out, _, _ => .off
    | _, y, _ => y) } := by
  obtain ⟨state, mark, failures, faulted, total⟩ := x
  cases c
  · cases state <;> cases mark <;> rfl
  · rfl
  · rfl

theorem setFeeder_accepts {f : Fin 8} {k : Option Nat} (c : Service) {s : State} (h : limitOk k = true) :
    setFeeder f.1 c k s = accept (changeFeeder f (Service.acts c) (s.limited (k.getD s.wft.limit))) [] := by
  rw [setFeeder, member_fin, h, setLimit_eq]
  cases c
  · rfl
  · rfl
  · exact congrArg (accept · []) (changeFeeder_id f _).symm

/-- What a feeder's report makes of it (R78). -/
def FeederReport.acts : FeederReport → Feeder → Feeder
  | .out => Feeder.goOut
  | .back => Feeder.goIn

theorem FeederReport.acts_eq (r : FeederReport) (x : Feeder) :
    FeederReport.acts r x = { x with state := (match r, x.state, x.mark with
      | .out, _, _ => .off
      | .back, .off, false => .ready
      | .back, .off, true => .suspended
      | .back, y, _ => y) } := by
  obtain ⟨state, mark, failures, faulted, total⟩ := x
  cases r
  · rfl
  · cases state <;> cases mark <;> rfl

theorem feederState_accepts (f : Fin 8) (r : FeederReport) (s : State) :
    feederState f.1 r s = accept (changeFeeder f (FeederReport.acts r) s) [] := by
  unfold feederState
  rw [member_fin]
  cases r <;> rfl

theorem restoreFeeder_eq (f : Fin 8) (s : State) : restoreFeeder f.1 s =
    if (s.wft.feeders.get f).state = .suspended ∨ ((s.wft.feeders.get f).state = .off ∧ (s.wft.feeders.get f).mark = true)
    then accept (changeFeeder f Feeder.restored s) [] else refuse s .wrongState := by
  rw [restoreFeeder, member_fin]

section
variable {s : State} {f : Fin 8}

theorem exec_setFeeder (c : Service) {k : Option Nat} (ho : s.plk.isOpen = true) (hk : ∀ n, k = some n → 1 ≤ n ∧ n ≤ 7) :
    ∃ t : State, exec (.setFeeder f.1 c k) s = .next t ∧
      s.feederBecomes t .p .setFeeder f (Service.acts c (s.wft.feeders.get f)) (k.getD s.wft.limit) :=
  feederBecomes_changeFeeder (l := .p) rfl ho rfl (setFeeder_accepts c ((limitOk_iff k).2 hk))

theorem exec_feederState (r : FeederReport) (ho : s.wlk.isOpen = true) :
    ∃ t : State, exec (.feederState f.1 r) s = .next t ∧
      s.feederBecomes t .w .feederState f (FeederReport.acts r (s.wft.feeders.get f)) s.wft.limit :=
  feederBecomes_changeFeeder (l := .w) (k := s.wft.limit) rfl ho rfl (feederState_accepts f r _)

theorem restoreFeeder_accepts (h : (s.wft.feeders.get f).state = .suspended ∨
    ((s.wft.feeders.get f).state = .off ∧ (s.wft.feeders.get f).mark = true)) :
    restoreFeeder f.1 (s.awaited .p .restoreFeeder) =
      accept (changeFeeder f Feeder.restored ((s.limited s.wft.limit).awaited .p .restoreFeeder)) [] :=
  (restoreFeeder_eq f (s.awaited .p .restoreFeeder)).trans (if_pos h)

theorem exec_restoreFeeder (ho : s.plk.isOpen = true) (h : (s.wft.feeders.get f).state = .suspended ∨
    ((s.wft.feeders.get f).state = .off ∧ (s.wft.feeders.get f).mark = true)) :
    ∃ t : State, exec (.restoreFeeder f.1) s = .next t ∧
      s.feederBecomes t .p .restoreFeeder f (Feeder.restored (s.wft.feeders.get f)) s.wft.limit :=
  feederBecomes_changeFeeder (l := .p) rfl ho rfl (restoreFeeder_accepts h)

end

/-- Settles O34: each request makes one change of a feeder (`feederBecomes_changeFeeder`). -/
theorem feederRequestsFollowTables : Obligations.FeederRequestsFollowTables := by
  intro s
  refine ⟨fun ho => ⟨fun i c k h => ?_, fun f c k hk => ?_, fun i hi => ?_, fun f hf => ?_, fun f hf hm => ?_, fun f hf => ?_⟩,
    fun ho => ⟨fun i r hi => ?_, fun f r => ?_⟩⟩
  · refine exec_refuses (l := .p) rfl ho rfl ?_
    rcases h with h | ⟨n, hk, hn⟩
    · rw [setFeeder, member_outside h]
    · rw [setFeeder, not_limitOk hk hn]
      cases member 8 i <;> rfl
  · obtain ⟨t, he, ht⟩ := exec_setFeeder (f := f) c ho hk
    rw [Service.acts_eq] at ht
    exact ⟨t, he, ht⟩
  · refine exec_refuses (l := .p) rfl ho rfl ?_
    rw [restoreFeeder, member_outside hi]
  · obtain ⟨t, he, ht⟩ := exec_restoreFeeder ho (.inl hf)
    rw [Feeder.restored, if_pos hf] at ht
    exact ⟨t, he, ht⟩
  · obtain ⟨t, he, ht⟩ := exec_restoreFeeder ho (.inr ⟨hf, hm⟩)
    rw [Feeder.restored, if_neg (by rw [hf]; decide)] at ht
    exact ⟨t, he, ht⟩
  · refine exec_refuses (l := .p) rfl ho rfl ?_
    refine (restoreFeeder_eq f (s.awaited .p .restoreFeeder)).trans (if_neg ?_)
    show ¬((s.wft.feeders.get f).state = .suspended ∨ ((s.wft.feeders.get f).state = .off ∧ (s.wft.feeders.get f).mark = true))
    rcases hf with h | ⟨h, hm⟩
    · simp [h]
    · simp [h, hm]
  · refine exec_refuses (l := .w) rfl ho rfl ?_
    unfold feederState
    rw [member_outside hi]
  · obtain ⟨t, he, ht⟩ := exec_feederState (f := f) r ho
    rw [FeederReport.acts_eq] at ht
    exact ⟨t, he, ht⟩

/-! ### The plans after a fill outside RUNNING (R85) -/

theorem pendingPlan_replanned {s : State} (b p q : Bool) (h : s.seq.state ≠ .running) :
    (replanned b p q s).pendingPlan = s.pendingPlan := by
  have hraise : ∀ (l : LinkId) (n : NoticeKind) (u : State), (raise l n u).pendingPlan = u.pendingPlan := fun l n u =>
    pendingPlan_congr (by rw [raise_hcc]) (by rw [raise_hcc]) (by rw [raise_seq])
  have quiet : ∀ (x : Bool) (u : State), u.seq.state ≠ .running →
      triggerWhen (decide (u.seq.state = .running) && x) .feederUnavailable u = u := fun x u hu => by
    rw [decide_eq_false hu]
    rfl
  unfold replanned
  dsimp only
  split
  · rw [quiet _ _ (by simpa using h), hraise, hraise]
  · rw [quiet _ _ (by simpa using h), hraise]

theorem pendingPlan_replan_kept {s : State} (q : Bool) (h : s.seq.state ≠ .running) :
    (replan false q s).pendingPlan = s.pendingPlan := by
  cases q
  · rfl
  · have hq : (replanStaged true s).seq = s.seq := (replanStaged_keeps true s).2
    show (replanned _ false true (replanStaged true s)).pendingPlan = _
    rw [pendingPlan_replanned _ _ _ (by rw [hq]; exact h), pendingPlan_replanStaged]

theorem pendingPlan_replan_again {s : State} (q : Bool) (h : s.seq.state ≠ .running) :
    (replan true q s).pendingPlan = (replanPending true s).pendingPlan := by
  have hs : (replanPending true s).seq = s.seq := (replanPending_keeps true s).2.2.1
  cases q
  · show (replanned _ true false (replanPending true s)).pendingPlan = _
    rw [pendingPlan_replanned _ _ _ (by rw [hs]; exact h)]
  · have hq := fun b => (replanStaged_keeps b (replanPending true s)).2
    show (replanned _ true true (replanStaged _ (replanPending true s))).pendingPlan = _
    rw [pendingPlan_replanned _ _ _ (by rw [hq, hs]; exact h), pendingPlan_replanStaged]

theorem pendingPlan_replanPending_some {s : State} {p : Plan} (hp : s.pendingPlan = some p) :
    (replanPending true s).pendingPlan = some { p with
      feeder := ((s.wft.foundBy p.group).choose (s.cardOf p.cursor).weft).feeder
      group := ((s.wft.foundBy p.group).choose (s.cardOf p.cursor).weft).group } := by
  have hsome := (replanPending_keeps true s).2.2.2
  rw [hp] at hsome
  obtain ⟨x, hx⟩ := Option.isSome_iff_exists.1 hsome
  rw [hx]
  exact congrArg some (pendingPlan_replanPending true hp hx)

section
variable {u : State} {f : Fin 8} {p : Plan} (hq : u.seq.state ≠ .running)
include hq

/-- R85: a plan that names a feeder is kept. -/
theorem fillPlans_keeps (hp : u.pendingPlan = some p) (hf : p.feeder ≠ none) : (fillPlans u).pendingPlan = some p := by
  have hn : planNone u.pendingPlan = false := by
    rw [hp, planNone]
    exact Option.isNone_eq_false_iff.2 (Option.isSome_iff_ne_none.2 hf)
  unfold fillPlans
  rw [hn, pendingPlan_replan_kept _ hq, hp]

/-- R85, R81: a plan of a FEEDER card that named NONE takes the feeder that is READY now. -/
theorem fillPlans_fills (hp : u.pendingPlan = some p) (hf : p.feeder = none) (hc : (u.cardOf p.cursor).weft = .feeder f)
    (hr : (u.wft.feeders.get f).state = .ready) :
    (fillPlans u).pendingPlan = some { p with feeder := some f, group := none } ∧
      .planChanged ∈ (fillPlans u).wlk.notices := by
  have hn : planNone u.pendingPlan = true := planNone_iff.2 ⟨p, hp, hf⟩
  refine ⟨?_, planChanged_replan (.inl hn)⟩
  unfold fillPlans
  rw [hn, pendingPlan_replan_again _ hq, pendingPlan_replanPending_some hp, hc]
  have hch : (u.wft.foundBy p.group).choose (.feeder f) = ⟨some f, none, u.wft.foundBy p.group⟩ := by
    have hready : ((u.wft.foundBy p.group).feeders.get f).state = .ready := by rw [foundBy_feeders]; exact hr
    rw [(planningChoosesReadyFeeder _).1 f, if_pos hready]
  rw [hch]

end

/-! ### The plans at a request that moves a feeder -/

/-- What the notice of a feeder's move is raised in. -/
def State.moving (s : State) (f : Fin 8) (x : Feeder) (k : Nat) (l : LinkId) (r : Request) : State :=
  raise .p .feederStateChanged (({ s with wft := { s.wft with
    feeders := upd s.wft.feeders f x, limit := k } } : State).awaited l r)

theorem raised_refed (s : State) (f : Fin 8) (x : Feeder) (k : Nat) (l : LinkId) (r : Request) :
    raise .p .feederStateChanged (((s.limited k).awaited l r).refed f x ((s.limited k).awaited l r).wft.limit) =
      s.moving f x k l r := by cases l <;> rfl

theorem moving_reads (s : State) (f : Fin 8) (x : Feeder) (k : Nat) (l : LinkId) (r : Request) :
    (s.moving f x k l r).pendingPlan = s.pendingPlan ∧ (s.moving f x k l r).xpe = s.xpe ∧ (s.moving f x k l r).seq = s.seq ∧
      (s.moving f x k l r).fst = s.fst ∧ (s.moving f x k l r).wft.feeders = upd s.wft.feeders f x := by
  cases l <;> exact ⟨rfl, rfl, rfl, rfl, rfl⟩

theorem pendingPlan_answeredLate (l : LinkId) (st : Status) (p : List Byte) (s : State) :
    (s.answeredLate l st p).pendingPlan = s.pendingPlan := by cases l <;> rfl

section
variable {c : Instr} {l : LinkId} {r : Request} {owner : State → State × Reply} {s : State} {f : Fin 8} {g : Feeder → Feeder}
  {k : Nat} (hc : served c = some ⟨l, r, .good, owner⟩) (ho : (s.link l).isOpen = true) (hl : r.onLink l = true)
  (hw : owner (s.awaited l r) = accept (changeFeeder f g ((s.limited k).awaited l r)) [])
include hc ho hl hw

/-- R84: the feeder leaves READY. -/
theorem exec_leavesReady (h : (s.wft.feeders.get f).state = .ready) (hn : (g (s.wft.feeders.get f)).state ≠ .ready) :
    exec c s = .next ((replanFrom f (s.moving f (g (s.wft.feeders.get f)) k l r)).answeredLate l .ok []) := by
  have hv : ((s.limited k).awaited l r).wft.feeders = s.wft.feeders := by cases l <;> rfl
  rw [(exec_changeFeeder hc ho hl hw).1, changeFeeder_leaves (by rw [hv]; exact h) (by rw [hv]; exact hn), hv, raised_refed]

/-- R85: the feeder enters READY. -/
theorem exec_entersReady (h : (s.wft.feeders.get f).state ≠ .ready) (hn : (g (s.wft.feeders.get f)).state = .ready) :
    exec c s = .next ((fillPlans (s.moving f (g (s.wft.feeders.get f)) k l r)).answeredLate l .ok []) := by
  have hv : ((s.limited k).awaited l r).wft.feeders = s.wft.feeders := by cases l <;> rfl
  rw [(exec_changeFeeder hc ho hl hw).1, changeFeeder_enters (by rw [hv]; exact h) (by rw [hv]; exact hn), hv, raised_refed]

theorem plans_leavesReady (h : (s.wft.feeders.get f).state = .ready) (hn : (g (s.wft.feeders.get f)).state ≠ .ready) :
    ∃ t : State, exec c s = .next t ∧ (∀ p, t.pendingPlan = some p → p.feeder ≠ some f) ∧
      (∀ p, t.xpe.staging.plan = some p → p.feeder ≠ some f) ∧
      ((∃ p, (s.pendingPlan = some p ∨ s.xpe.staging.plan = some p) ∧ p.feeder = some f) →
        .planChanged ∈ t.wlk.notices) := by
  obtain ⟨hp, hx, -, -, hf⟩ := moving_reads s f (g (s.wft.feeders.get f)) k l r
  obtain ⟨h1, h2⟩ := replanFrom_names_none (s := s.moving f (g (s.wft.feeders.get f)) k l r) (f := f)
    (by rw [hf, get_upd]; exact hn)
  refine ⟨_, exec_leavesReady hc ho hl hw h hn, fun p hpp => h1 p ?_, fun p hpp => h2 p ?_, fun hex =>
    ((kept_answer l ⟨.ok, []⟩ _).links .w).notices _ (planChanged_replanFrom ?_)⟩
  · rw [← pendingPlan_answeredLate l .ok []]
    exact hpp
  · rwa [answeredLate_xpe] at hpp
  · rw [hp, hx]
    exact hex

theorem plans_entersReady (hq : s.seq.state ≠ .running) (h : (s.wft.feeders.get f).state ≠ .ready)
    (hn : (g (s.wft.feeders.get f)).state = .ready) : ∃ t : State, exec c s = .next t ∧
      (∀ p, s.pendingPlan = some p → p.feeder ≠ none → t.pendingPlan = some p) ∧
      (∀ p, s.pendingPlan = some p → p.feeder = none → (s.cardOf p.cursor).weft = .feeder f →
        t.pendingPlan = some { p with feeder := some f, group := none } ∧ .planChanged ∈ t.wlk.notices) := by
  obtain ⟨hp, -, hs, hst, hf⟩ := moving_reads s f (g (s.wft.feeders.get f)) k l r
  refine ⟨_, exec_entersReady hc ho hl hw h hn, fun p hpp hfp => ?_, fun p hpp hfp hcard => ?_⟩
  · rw [pendingPlan_answeredLate]
    exact fillPlans_keeps (by rw [hs]; exact hq) (hp.trans hpp) hfp
  · have hcard' : ((s.moving f (g (s.wft.feeders.get f)) k l r).cardOf p.cursor).weft = .feeder f := by
      rw [State.cardOf, State.design, State.slot, hst]
      exact hcard
    obtain ⟨h1, h2⟩ := fillPlans_fills (by rw [hs]; exact hq) (hp.trans hpp) hfp hcard' (by rw [hf, get_upd]; exact hn)
    rw [pendingPlan_answeredLate]
    exact ⟨h1, ((kept_answer l ⟨.ok, []⟩ _).links .w).notices _ h2⟩

end

/-- Settles O35: the move of the feeder brings `replanFrom` or `fillPlans`, before the answer. -/
theorem feederChangesReplan : Obligations.FeederChangesReplan := by
  intro s f
  have setting := fun (c : Service) {k : Option Nat} (hk : ∀ n, k = some n → 1 ≤ n ∧ n ≤ 7) =>
    setFeeder_accepts (f := f) (s := s.awaited .p .setFeeder) c ((limitOk_iff k).2 hk)
  have reporting := fun r => feederState_accepts f r (s.awaited .w .feederState)
  have free : ∀ n, (none : Option Nat) = some n → 1 ≤ n ∧ n ≤ 7 := nofun
  refine ⟨fun c l r k ho hr h => ⟨_, _, rfl, replanFrom_replansFrom f _, ?_⟩, fun c l r k x ho h =>
    ⟨_, _, rfl, fillPlans_fillsPlans _, ?_⟩, fun hr c h => ?_, fun hn hm hq c h => ?_, fun hs hq ho => ?_⟩
  · rcases h with ⟨rfl, rfl, rfl, rfl⟩ | ⟨rfl, rfl, rfl, hk⟩
    · exact exec_leavesReady (k := s.wft.limit) (g := Feeder.goOut) rfl ho rfl (reporting .out) hr nofun
    · exact exec_leavesReady (g := Feeder.goOut) rfl ho rfl (setting .out hk) hr nofun
  · rcases h with ⟨rfl, rfl, rfl, rfl, hoff, hm, rfl⟩ | ⟨rfl, rfl, rfl, hk, hoff, hm, rfl⟩ | ⟨rfl, rfl, rfl, rfl, hs, rfl⟩
    · have hg := goIn_of_off hoff hm
      rw [← hg]
      exact exec_entersReady (k := s.wft.limit) (g := Feeder.goIn) rfl ho rfl (reporting .back) (by rw [hoff]; decide) (by rw [hg])
    · have hg := goIn_of_off hoff hm
      rw [← hg]
      exact exec_entersReady (g := Feeder.goIn) rfl ho rfl (setting .into hk) (by rw [hoff]; decide) (by rw [hg])
    · have hg : Feeder.restored (s.wft.feeders.get f) = { s.wft.feeders.get f with state := .ready, mark := false, failures := 0 } := by
        rw [Feeder.restored, if_pos hs]
      rw [← hg]
      exact exec_entersReady (k := s.wft.limit) (g := Feeder.restored) rfl ho rfl (restoreFeeder_accepts (.inl hs))
        (by rw [hs]; decide) (by rw [hg])
  · rcases h with ⟨rfl, ho⟩ | ⟨rfl, ho⟩
    · exact plans_leavesReady (l := .w) (k := s.wft.limit) (g := Feeder.goOut) rfl ho rfl (reporting .out) hr nofun
    · exact plans_leavesReady (l := .p) (g := Feeder.goOut) rfl ho rfl (setting .out free) hr nofun
  · rcases h with ⟨rfl, ho, hoff⟩ | ⟨rfl, ho, hoff⟩
    · exact plans_entersReady (l := .w) (k := s.wft.limit) (g := Feeder.goIn) rfl ho rfl (reporting .back) hq hn
        (by rw [goIn_of_off hoff hm])
    · exact plans_entersReady (l := .p) (g := Feeder.goIn) rfl ho rfl (setting .into free) hq hn (by rw [goIn_of_off hoff hm])
  · refine plans_entersReady (l := .p) (k := s.wft.limit) (g := Feeder.restored) rfl ho rfl (restoreFeeder_accepts (.inl hs)) hq
      (by rw [hs]; decide) ?_
    rw [Feeder.restored, if_pos hs]

end Sys2Proof.Machine
end

section
/-! PROOFS. SET-GROUP (R80) and WEFT-REPORT (R91, R92). -/

namespace Sys2Proof.Machine

/-! ### SET-GROUP -/

/-- R80 step 3: the ranges that a group record must keep. -/
theorem groupOk_of_feeders {p q : Option (Fin 8)} {m : GroupMode} (h1 : q ≠ none → p ≠ none ∧ p ≠ q) (h2 : m = .alternate → q ≠ none) :
    groupOk (p.map (·.1)) (q.map (·.1)) m = true := by
  have single : q = none → m = .single := fun hq => by
    cases m with
    | single => rfl
    | alternate => exact absurd hq (h2 rfl)
  cases q with
  | none =>
    rw [single rfl]
    cases p with
    | none => rfl
    | some a => simp [groupOk, a.isLt]
  | some b =>
    obtain ⟨hp, hne⟩ := h1 nofun
    cases p with
    | none => exact absurd rfl hp
    | some a =>
      have hab : a.1 ≠ b.1 := fun h => hne (congrArg some (Fin.ext h))
      simp [groupOk, a.isLt, b.isLt, hab]

theorem groupOk_refused {p q : Option Nat} {m : GroupMode}
    (h : (∃ n, (p = some n ∨ q = some n) ∧ 8 ≤ n) ∨ (q ≠ none ∧ (p = none ∨ p = q)) ∨ (m = .alternate ∧ q = none)) :
    groupOk p q m = false := by
  cases p with
  | none =>
    cases q with
    | none =>
      cases m with
      | single => simp at h
      | alternate => rfl
    | some b => rfl
  | some a =>
    cases q with
    | none =>
      cases m with
      | single =>
        have ha : ¬a < 8 := by simpa using h
        simp [groupOk, ha]
      | alternate => simp [groupOk]
    | some b =>
      have hab : ¬(a < 8 ∧ b < 8 ∧ a ≠ b) := by
        rintro ⟨ha, hb, hne⟩
        rcases h with ⟨n, hn | hn, hle⟩ | ⟨-, hn | hn⟩ | ⟨-, hn⟩
        · cases hn; omega
        · cases hn; omega
        · cases hn
        · exact hne (Option.some.inj hn)
        · cases hn
      refine Bool.eq_false_iff.2 fun k => hab ?_
      simpa [groupOk, and_assoc] using k

theorem feederOf_map (p : Option (Fin 8)) : feederOf (p.map (·.1)) = p := by
  cases p with
  | none => rfl
  | some a => exact member_fin a

theorem setGroup_wrongState {s : State} (g : Fin 8) (p q : Option Nat) (m : GroupMode) (h : ¬s.writable = true) :
    setGroup g.1 p q m s = refuse s .wrongState := by
  rw [setGroup, member_fin]
  exact if_neg h

theorem setGroup_badArgument {s : State} (g : Fin 8) {p q : Option Nat} {m : GroupMode} (h : s.writable = true)
    (hg : groupOk p q m = false) : setGroup g.1 p q m s = refuse s .badArgument := by
  rw [setGroup, member_fin]
  dsimp only
  rw [if_pos h, if_neg (by rw [hg]; decide)]

theorem setGroup_accepts {s : State} (g : Fin 8) {p q : Option (Fin 8)} {m : GroupMode} (h : s.writable = true)
    (hg : groupOk (p.map (·.1)) (q.map (·.1)) m = true) : setGroup g.1 (p.map (·.1)) (q.map (·.1)) m s =
      accept (replanAfresh g { s with wft := { s.wft with groups := upd s.wft.groups g ⟨p, q, m, .primaryNext⟩ } }) [] := by
  rw [setGroup, member_fin]
  dsimp only
  rw [if_pos h, if_pos hg, feederOf_map, feederOf_map]

/-- R80: no pending plan of the group is planned afresh. -/
theorem replanAfresh_keeps {s : State} {g : Fin 8}
    (h : s.seq.state = .unloaded ∨ ∀ x, s.pendingPlan = some x → ∀ y, x.group = some y → y.group ≠ g) :
    replanAfresh g s = s := by
  unfold replanAfresh
  split
  next x hx =>
    refine if_neg ?_
    rintro ⟨hr, hg⟩
    rcases h with hu | hn
    · exact absurd (hu.symm.trans hr) (by decide)
    · obtain ⟨y, hy, hyg⟩ := Option.map_eq_some_iff.1 hg
      exact hn x hx y hy hyg
  · rfl

theorem replanned_ready {s : State} (b p q : Bool) (h : s.seq.state = .ready) : ∃ (d w : Link),
    replanned b p q s = { s with dlk := d, wlk := w } ∧ .planChanged ∈ w.notices := by
  have quiet : ∀ (x : Bool) (u : State), u.seq.state = .ready →
      triggerWhen (decide (u.seq.state = .running) && x) .feederUnavailable u = u := fun x u hu => by
    rw [decide_eq_false (by rw [hu]; decide)]
    rfl
  unfold replanned
  dsimp only
  split
  · rw [quiet _ _ (by simpa using h)]
    exact ⟨_, _, rfl, by simp⟩
  · rw [quiet _ _ (by simpa using h)]
    exact ⟨_, _, rfl, by simp⟩

theorem replanAfresh_again {s : State} {g : Fin 8} {x : Plan} {y : PlannedGroup} (hr : s.seq.state = .ready)
    (hp : s.pendingPlan = some x) (hy : x.group = some y) (hg : y.group = g) : ∃ (d w : Link),
    replanAfresh g s = { replanPending false s with dlk := d, wlk := w } ∧ .planChanged ∈ w.notices := by
  unfold replanAfresh
  rw [hp]
  dsimp only
  rw [if_pos ⟨hr, by rw [hy, ← hg]; rfl⟩]
  exact replanned_ready _ _ _ (by rw [(replanPending_keeps false s).2.2.1]; exact hr)

/-- R80: the pending plan planned afresh. -/
theorem replanPending_afresh {s : State} {x : Plan} (hp : s.pendingPlan = some x) :
    (replanPending false s).wft = (s.wft.choose (s.cardOf x.cursor).weft).wft ∧
      (replanPending false s).pendingPlan = some { x with
        feeder := (s.wft.choose (s.cardOf x.cursor).weft).feeder, group := (s.wft.choose (s.cardOf x.cursor).weft).group } := by
  refine ⟨by rw [replanPending, hp]; rfl, ?_⟩
  have hsome := (replanPending_keeps false s).2.2.2
  rw [hp] at hsome
  obtain ⟨z, hz⟩ := Option.isSome_iff_exists.1 hsome
  rw [hz]
  exact congrArg some (pendingPlan_replanPending false hp hz)

/-- Settles O37: the checks in their order; then the record, with the re-plan that `replanAfresh_again` makes. -/
theorem setGroupReplacesRecord : Obligations.SetGroupReplacesRecord := by
  intro s ho
  replace ho : (s.link .p).isOpen = true := ho
  obtain ⟨a, ha⟩ : ∃ a : State, a = s.awaited .p .setGroup := ⟨_, rfl⟩
  have hwrite : a.writable = true ↔ s.openToSettings := by rw [ha]; exact writable_iff
  refine ⟨fun g p q m hg => ?_, fun g p q m hn => ?_, fun g p q m hs h => ?_, fun g p q m hs h1 h2 => ⟨_, rfl, fun h => ?_,
    fun x y hr hp hy hg => ?_⟩⟩
  · refine exec_refuses (l := .p) rfl ho rfl ?_
    rw [setGroup, member_outside hg]
  · exact exec_refuses (l := .p) rfl ho rfl (setGroup_wrongState g p q m (ha ▸ mt hwrite.1 hn))
  · exact exec_refuses (l := .p) rfl ho rfl (setGroup_badArgument g (ha ▸ hwrite.2 hs) (groupOk_refused h))
  · have hacc := setGroup_accepts (p := p) (q := q) (m := m) g (hwrite.2 hs) (groupOk_of_feeders h1 h2)
    rw [replanAfresh_keeps (by rw [ha]; exact h), ha] at hacc
    exact exec_answers (l := .p) (u := { s with wft := { s.wft with groups := upd s.wft.groups g ⟨p, q, m, .primaryNext⟩ } })
      rfl ho rfl rfl hacc
  · have hacc := setGroup_accepts (p := p) (q := q) (m := m) g (hwrite.2 hs) (groupOk_of_feeders h1 h2)
    obtain ⟨u, hu⟩ : ∃ u : State, u = { a with wft := { a.wft with groups := upd a.wft.groups g ⟨p, q, m, .primaryNext⟩ } } :=
      ⟨_, rfl⟩
    rw [← hu] at hacc
    have hus : u.seq = s.seq := by rw [hu, ha]; rfl
    have hup : u.pendingPlan = some x := by rw [hu, ha]; exact hp
    obtain ⟨d, w, he, hw⟩ := replanAfresh_again (s := u) (by rw [hus]; exact hr) hup hy hg
    obtain ⟨hwft, hpend⟩ := replanPending_afresh hup
    have hcard : (u.cardOf x.cursor) = s.cardOf x.cursor := by rw [hu, ha]; rfl
    have huw : u.wft = { s.wft with groups := upd s.wft.groups g ⟨p, q, m, .primaryNext⟩ } := by rw [hu, ha]; rfl
    rw [hcard, huw] at hwft hpend
    rw [ha] at hacc
    obtain ⟨hexec, hresp⟩ := exec_accepts (c := .setGroup g.1 (p.map (·.1)) (q.map (·.1)) m) (l := .p) (b := u) rfl ho rfl hacc
      (kept_replanAfresh g u) (by rw [hu, ha]; rfl)
    refine ⟨_, hexec, ?_, ?_, ?_, hresp, ?_⟩
    · rw [answer_wft, he]
      exact hwft
    · rw [he]
      exact hpend
    · rw [he]
      exact hw
    · rw [answer_seq, he]
      exact (replanPending_keeps false u).2.2.1.trans hus

/-! ### WEFT-REPORT -/

theorem pendingSerial_iff {s : State} {n : Half} : s.pendingSerial n = true ↔ ∃ p, s.pendingPlan = some p ∧ p.cursor.serial = n := by
  unfold State.pendingSerial
  cases s.pendingPlan with
  | none => simp
  | some q => simp only [Option.some.injEq, exists_eq_left']; exact decide_eq_true_iff

theorem failure_iff (o : Insertion) : o.failure = true ↔ o ≠ .inserted := by cases o <;> simp [Insertion.failure]

/-- R91: INSERTED does not replace a failure of the same serial. -/
theorem record_eq (w : Wft) (n : Half) (o : Insertion) : (o = .inserted → (∃ x, w.report = some ⟨n, x⟩ ∧ x ≠ .inserted) → w.record n o = w) ∧
    (¬(o = .inserted ∧ ∃ x, w.report = some ⟨n, x⟩ ∧ x ≠ .inserted) → w.record n o = { w with report := some ⟨n, o⟩ }) := by
  have hc : (w.failureFor n && !o.failure) = true ↔ o = .inserted ∧ ∃ x, w.report = some ⟨n, x⟩ ∧ x ≠ .inserted := by
    rw [Bool.and_eq_true, failureFor_iff, Bool.not_eq_true', ← Bool.not_eq_true, failure_iff, Classical.not_not, and_comm]
  exact ⟨fun h1 h2 => if_pos (hc.2 ⟨h1, h2⟩), fun h => if_neg (mt hc.1 h)⟩

theorem weftReport_pending {s : State} {n : Half} {p : Plan} (o : Insertion) (hp : s.pendingPlan = some p)
    (hn : p.cursor.serial = n) : weftReport n o s = accept { s with wft := s.wft.record n o } [] :=
  if_pos (pendingSerial_iff.2 ⟨p, hp, hn⟩)

theorem weftReport_of_not_pending {s : State} {n : Half} (o : Insertion) (h : ∀ p, s.pendingPlan = some p → p.cursor.serial ≠ n) :
    weftReport n o s = match s.seq.history.find? fun e => decide (e.serial = n) with
      | none => refuse s .stale
      | some e => if o.failure && !e.suspect then accept (lateFailure e s) [] else accept s [] :=
  if_neg fun k => by
    obtain ⟨p, hp, hn⟩ := pendingSerial_iff.1 k
    exact h p hp hn

theorem find_entry {a b : List HistEntry} {e : HistEntry} {n : Half} (he : e.cursor.serial = n)
    (h : ∀ x ∈ a, x.cursor.serial ≠ n) : (a ++ e :: b).find? (fun e => decide (e.serial = n)) = some e := by
  have ha : a.find? (fun e => decide (e.serial = n)) = none :=
    List.find?_eq_none.2 fun x hx => mt of_decide_eq_true (h x hx)
  rw [List.find?_append, ha, Option.none_or, List.find?_cons_of_pos]
  exact decide_eq_true he

theorem markSuspect_eq {a b : List HistEntry} {e : HistEntry} {n : Half} (he : e.cursor.serial = n)
    (h : ∀ x ∈ a ++ b, x.cursor.serial ≠ n) : markSuspect n (a ++ e :: b) = a ++ { e with suspect := true } :: b := by
  have kept : ∀ l : List HistEntry, (∀ x ∈ l, x.cursor.serial ≠ n) → markSuspect n l = l := fun l hl =>
    (List.map_congr_left fun x hx => if_neg (hl x hx)).trans (List.map_id l)
  unfold markSuspect
  rw [List.map_append, List.map_cons, if_pos (by exact he)]
  rw [show a.map _ = a from kept a fun x hx => h x (List.mem_append_left _ hx),
    show b.map _ = b from kept b fun x hx => h x (List.mem_append_right _ hx)]

/-- R92: the state in which the trigger of a late failure is handed to GRD. -/
def State.suspected (e : HistEntry) (s : State) : State := { s with
  seq := { s.seq with history := markSuspect e.serial s.seq.history }
  wft := e.feeder.elim s.wft fun f => s.wft.setFeeder f (s.wft.feeders.get f).fail }

theorem lateFailure_eq (e : HistEntry) (s : State) : lateFailure e s = trigger .weftFail (s.suspected e) := by
  unfold lateFailure State.suspected
  dsimp only
  cases e.feeder <;> rfl

theorem get_suspected (e : HistEntry) (s : State) (f : Fin 8) : (s.suspected e).wft.feeders.get f =
    if e.feeder = some f then { s.wft.feeders.get f with
      faulted := true
      total := if (s.wft.feeders.get f).total < 65535 then (s.wft.feeders.get f).total + 1 else (s.wft.feeders.get f).total }
    else s.wft.feeders.get f := by
  unfold State.suspected
  cases e.feeder with
  | none => rfl
  | some i =>
    show (upd s.wft.feeders i (s.wft.feeders.get i).fail).get f = _
    rw [get_upd_eq]
    by_cases h : f = i
    · subst h
      rw [if_pos rfl, if_pos rfl]
      rfl
    · rw [if_neg h, if_neg fun k => h (Option.some.inj k).symm]

/-- Settles O38: the report is recorded, refused, or found in the history. -/
theorem weftReportAnsweredBySerial : Obligations.WeftReportAnsweredBySerial := by
  intro s n o ho
  replace ho : (s.link .w).isOpen = true := ho
  refine ⟨fun p hp hn => ⟨fun h1 h2 => ?_, fun h => ?_⟩, fun hp => ⟨fun h => ?_, fun a b e hh he hu => ⟨fun h => ?_, fun h1 h2 => ?_⟩⟩⟩
  · have hw := weftReport_pending (s := s.awaited .w .weftReport) o hp hn
    rw [show (s.awaited .w .weftReport).wft.record n o = s.wft from (record_eq s.wft n o).1 h1 h2] at hw
    exact exec_answers (l := .w) (u := s) rfl ho rfl rfl hw
  · have hw := weftReport_pending (s := s.awaited .w .weftReport) o hp hn
    rw [show (s.awaited .w .weftReport).wft.record n o = { s.wft with report := some ⟨n, o⟩ } from (record_eq s.wft n o).2 h] at hw
    exact exec_answers (l := .w) (u := { s with wft := { s.wft with report := some ⟨n, o⟩ } }) rfl ho rfl rfl hw
  · have hw := weftReport_of_not_pending (s := s.awaited .w .weftReport) o hp
    have hnone : (s.awaited .w .weftReport).seq.history.find? (fun e => decide (e.serial = n)) = none :=
      List.find?_eq_none.2 fun x hx => mt of_decide_eq_true (h x hx)
    rw [hnone] at hw
    exact exec_refuses (l := .w) rfl ho rfl hw
  · have hw := weftReport_of_not_pending (s := s.awaited .w .weftReport) o hp
    have hsome : (s.awaited .w .weftReport).seq.history.find? (fun e => decide (e.serial = n)) = some e := by
      show s.seq.history.find? _ = _
      rw [hh]
      exact find_entry he fun x hx => hu x (List.mem_append_left _ hx)
    have hno : (o.failure && !e.suspect) = false := by
      rcases h with h | h <;> rw [h]
      · rfl
      · exact Bool.and_false _
    rw [hsome] at hw
    dsimp only at hw
    rw [hno] at hw
    exact exec_answers (l := .w) (u := s) rfl ho rfl rfl hw
  · have hw := weftReport_of_not_pending (s := s.awaited .w .weftReport) o hp
    have hsome : (s.awaited .w .weftReport).seq.history.find? (fun e => decide (e.serial = n)) = some e := by
      show s.seq.history.find? _ = _
      rw [hh]
      exact find_entry he fun x hx => hu x (List.mem_append_left _ hx)
    have hyes : (o.failure && !e.suspect) = true := by rw [(failure_iff o).2 h1, h2]; rfl
    rw [hsome] at hw
    dsimp only at hw
    rw [hyes, if_pos rfl, lateFailure_eq] at hw
    obtain ⟨v, hv⟩ : ∃ v : State, v = (s.awaited .w .weftReport).suspected e := ⟨_, rfl⟩
    rw [← hv] at hw
    have hk := kept_trigger .weftFail v
    obtain ⟨hexec, hresp⟩ := exec_accepts (c := .weftReport n o) (l := .w) (b := v) rfl ho rfl hw hk (by rw [hv]; rfl)
    refine ⟨_, hexec, hresp, ?_, ?_, ?_, fun f => ?_, ?_, fun hg hen => ?_⟩
    · rw [answer_seq, hk.history, hv]
      show markSuspect e.cursor.serial s.seq.history = _
      rw [hh, he]
      exact markSuspect_eq he hu
    · rw [answer_seq, hk.cursor, hv]
      rfl
    · rw [answer_chu, hk.chu, hv]
      rfl
    · rw [answer_wft, hk.feeders, hv, get_suspected]
      rfl
    · rw [answer_grd, totals_trigger, hv]
      simp only [true_and]
      rfl
    · rw [answer_seq]
      exact (heldBy_trigger_taken (by rw [hv]; exact hg) (by rw [hv]; exact hen)).state

end Sys2Proof.Machine
end

section
/-! PROOFS. Where the pick on its way to the modules stands, read out of the state as a `Pose`: the words of `presentSound` and
of `plansReady` without images, groups, slots and links, and what the moves of a pose keep. -/

namespace Sys2Proof.Machine

/-! ### The pose -/

/-- What the staging buffer holds: the pick without its plan and its image. -/
inductive Buffer
  | empty
  | filling (c : Cursor)
  | complete (c : Cursor)

def Buffer.cursor : Buffer → Option Cursor
  | .empty => none
  | .filling c => some c
  | .complete c => some c

def Staging.buffer : Staging → Buffer
  | .empty => .empty
  | .filling p => .filling p.cursor
  | .complete p _ => .complete p.cursor

/-- What `presentSound` and `plansReady` look at. -/
structure Pose where
  state : SeqState
  cursor : Option Cursor
  past : List Cursor
  present : Option Stage
  waiting : Bool
  job : Bool
  staged : Buffer
  stagedFeed : Option (Fin 8)
  latched : Option Cursor
  latchedFeed : Option (Fin 8)
  taking : Bool
  released : Bool
  ready : Fin 8 → Bool

def State.pose (s : State) : Pose where
  state := s.seq.state
  cursor := s.seq.cursor
  past := s.seq.history.map (·.cursor)
  present := s.seq.present.map (·.stage)
  waiting := s.seq.presentWaiting
  job := s.xpe.job.isSome
  staged := s.xpe.staging.buffer
  stagedFeed := s.xpe.staging.plan.bind (·.feeder)
  latched := s.hcc.latched.plan.map (·.cursor)
  latchedFeed := s.hcc.latched.plan.bind (·.feeder)
  taking := s.hcc.isTaking
  released := s.hcc.holdsReleased
  ready := s.wft.isReady

namespace Pose
variable (p : Pose)

/-- A pending plan stands (R82). -/
def pending : Prop := p.released = false ∧ p.latched ≠ none ∧ p.latched = p.cursor
def stagedCurrent : Prop := ∀ c, p.staged.cursor = some c → p.cursor = some c
def latchedCurrent : Prop := ∀ c, p.latched = some c → p.released = true ∨ p.cursor = some c
/-- The latched pick is none of the history. -/
def latchedNew : Prop := ∀ c, p.latched = some c → p.released = true ∨ c ∉ p.past
/-- A TAKE in progress is of the cursor pick, or RESET-SEQUENCER met it. -/
def takenCurrent : Prop := p.taking = true → p.released = true ∨ p.stagedCurrent

/-- The clauses that do not depend on the state of the sequencer. -/
structure Settled : Prop where
  filling : p.job = true → ∃ c, p.staged = .filling c
  complete : p.taking = true → ∃ c, p.staged = .complete c
  released : p.released = true → p.taking = true
  taken : p.taking = true → p.pending → p.stagedCurrent
  pendingReady : p.pending → ∀ f, p.latchedFeed = some f → p.ready f = true
  stagedReady : ∀ f, p.stagedFeed = some f → p.ready f = true

/-- No PRESENT job runs and none waits. -/
structure Idle : Prop extends Settled p where
  present : p.present = none
  waiting : p.waiting = false

/-- `presentSound` and `plansReady`. -/
structure Sound : Prop extends Settled p where
  waiting : p.waiting = true → p.state = .presenting ∧ p.present = none
  present : p.present ≠ none → p.state = .presenting ∨ p.state = .finding
  stage : ∀ g, p.present = some g → p.stagedCurrent ∧ (g = .taking ↔ p.taking = true) ∧
    (g ≠ .expanding → ∃ c, p.staged = .complete c)
  guarded : p.state = .guard ∨ p.state = .halted → p.taking = false → p.job = false ∧ p.staged = .empty
  unloaded : p.state = .unloaded → (p.latched ≠ none → p.released = true) ∧ (p.taking = true → p.released = true)
  steady : p.state = .ready → p.latchedCurrent ∧ p.takenCurrent
  finding : p.state = .finding → p.latchedNew ∧ (p.present = none → p.latchedCurrent ∧ p.takenCurrent)

end Pose

/-! ### The pose and the two invariants -/

theorem buffer_cursor (x : Staging) : x.buffer.cursor = x.plan.map (·.cursor) := by cases x <;> rfl

theorem buffer_filling (x : Staging) : (∃ c, x.buffer = .filling c) ↔ ∃ q, x = .filling q := by
  cases x <;> simp [Staging.buffer]

theorem buffer_complete (x : Staging) : (∃ c, x.buffer = .complete c) ↔ ∃ q i, x = .complete q i := by
  cases x <;> simp [Staging.buffer]

theorem buffer_empty (x : Staging) : x.buffer = .empty ↔ x = .empty := by
  cases x <;> simp [Staging.buffer]

theorem pending_pose (s : State) : s.pose.pending ↔ ∃ p, s.pendingPlan = some p := by
  refine Iff.trans ?_ (exists_congr fun _ => pendingPlan_eq_some).symm
  show (s.hcc.holdsReleased = false ∧ s.hcc.latched.plan.map (·.cursor) ≠ none ∧
    s.hcc.latched.plan.map (·.cursor) = s.seq.cursor) ↔ _
  cases s.hcc.latched.plan with
  | none => simp
  | some p => simpa using fun _ => (eq_comm : some p.cursor = s.seq.cursor ↔ _)

theorem pending_pose_ne (s : State) : s.pose.pending ↔ s.pendingPlan ≠ none := by
  rw [pending_pose, ← Option.isSome_iff_exists, Option.isSome_iff_ne_none]

theorem latchedFeed_pose {s : State} {p : Plan} (h : s.pendingPlan = some p) : s.pose.latchedFeed = p.feeder := by
  show s.hcc.latched.plan.bind _ = _
  rw [(pendingPlan_eq_some.1 h).1]
  rfl

theorem ready_pose (s : State) (f : Fin 8) : s.pose.ready f = true ↔ (s.wft.feeders.get f).state = .ready :=
  decide_eq_true_iff

theorem taking_pose (s : State) : s.pose.taking = true ↔ s.takes := isTaking_iff_takes s

theorem stagedCurrent_pose (s : State) : s.pose.stagedCurrent ↔ s.stagedCurrent := by
  unfold Pose.stagedCurrent State.stagedCurrent
  show (∀ c, s.xpe.staging.buffer.cursor = some c → s.seq.cursor = some c) ↔ _
  rw [buffer_cursor]
  cases s.xpe.staging.plan <;> simp

theorem latched_pose {s : State} {φ : Cursor → Prop} :
    (∀ c, s.pose.latched = some c → φ c) ↔ ∀ p image, s.hcc.latched = .pick p image → φ p.cursor := by
  show (∀ c, s.hcc.latched.plan.map (·.cursor) = some c → φ c) ↔ _
  cases s.hcc.latched <;> simp [Latched.plan]

theorem latchedCurrent_pose (s : State) : s.pose.latchedCurrent ↔ s.latchedCurrent := latched_pose

theorem takenCurrent_pose (s : State) : s.pose.takenCurrent ↔ (s.takes → s.hcc.holdsReleased = true ∨ s.stagedCurrent) := by
  unfold Pose.takenCurrent
  rw [taking_pose, stagedCurrent_pose]
  rfl

theorem latchedNew_pose (s : State) : s.pose.latchedNew ↔ ∀ p image, s.hcc.latched = .pick p image →
    s.hcc.holdsReleased = true ∨ ∀ e ∈ s.seq.history, e.cursor ≠ p.cursor := by
  unfold Pose.latchedNew
  rw [latched_pose (φ := fun c => s.pose.released = true ∨ c ∉ s.pose.past)]
  simp [State.pose]

theorem plansReady_pose (s : State) : s.plansReady ↔ (s.pose.pending → ∀ f, s.pose.latchedFeed = some f → s.pose.ready f = true) ∧
    ∀ f, s.pose.stagedFeed = some f → s.pose.ready f = true := by
  simp only [State.plansReady, ready_pose]
  refine and_congr ⟨fun h hp f hf => ?_, fun h p f hp hf => ?_⟩ ?_
  · obtain ⟨p, hp⟩ := (pending_pose s).1 hp
    exact h p f hp ((latchedFeed_pose hp).symm.trans hf)
  · exact h ((pending_pose s).2 ⟨p, hp⟩) f ((latchedFeed_pose hp).trans hf)
  · show _ ↔ ∀ f, s.xpe.staging.plan.bind _ = some f → _
    cases s.xpe.staging.plan with
    | none => simp
    | some q => exact ⟨fun h f => h q f rfl, fun h _ f hq => by cases hq; exact h f⟩

theorem present_pose (s : State) : s.pose.present = none ↔ s.seq.present = none := Option.map_eq_none_iff

theorem stage_pose {s : State} {φ : Stage → Prop} :
    (∀ g, s.pose.present = some g → φ g) ↔ ∀ j, s.seq.present = some j → φ j.stage := by
  show (∀ g, s.seq.present.map (·.stage) = some g → φ g) ↔ _
  cases s.seq.present <;> simp

theorem empty_pose (s : State) : s.pose.job = false ∧ s.pose.staged = .empty ↔ s.xpe = ⟨none, .empty⟩ := by
  show s.xpe.job.isSome = false ∧ s.xpe.staging.buffer = .empty ↔ _
  rw [buffer_empty, Option.isSome_eq_false_iff, Option.isNone_iff_eq_none]
  cases s.xpe
  simp

theorem sound_pose (s : State) : s.pose.Sound ↔ s.presentSound ∧ s.plansReady := by
  have hjob : s.pose.job = true ↔ s.xpe.job ≠ none := Option.isSome_iff_ne_none
  have hlat : (s.pose.latched ≠ none → s.pose.released = true) ↔
      ∀ p image, s.hcc.latched = .pick p image → s.hcc.holdsReleased = true := by
    rw [← latched_pose (φ := fun _ => s.hcc.holdsReleased = true)]
    show (s.pose.latched ≠ none → s.hcc.holdsReleased = true) ↔ _
    cases s.pose.latched <;> simp
  have htak : s.pose.taking = false ↔ ¬s.takes := isTaking_eq_false_iff s
  rw [plansReady_pose]
  constructor
  · intro h
    refine ⟨⟨fun hw => ?_, fun hp => h.present (mt (present_pose s).1 hp), ?_, fun hj => ?_, fun hg ht => ?_, fun ht => ?_,
      fun hr => (taking_pose s).1 (h.released hr), fun hu => ?_, fun hr => ?_, fun hf => ?_, fun ht hp => ?_⟩,
      h.pendingReady, h.stagedReady⟩
    · exact ⟨(h.waiting hw).1, (present_pose s).1 (h.waiting hw).2⟩
    · refine (stage_pose (φ := fun g => s.stagedCurrent ∧ (g = .taking ↔ s.takes) ∧
        (g ≠ .expanding → ∃ q image, s.xpe.staging = .complete q image))).1 fun g hg => ?_
      rw [← stagedCurrent_pose, ← taking_pose, ← buffer_complete]
      exact h.stage g hg
    · exact (buffer_filling _).1 (h.filling (hjob.2 hj))
    · exact (empty_pose s).1 (h.guarded hg (htak.2 ht))
    · exact (buffer_complete _).1 (h.complete ((taking_pose s).2 ht))
    · exact ⟨hlat.1 (h.unloaded hu).1, fun ht => (h.unloaded hu).2 ((taking_pose s).2 ht)⟩
    · exact (h.steady hr).imp (latchedCurrent_pose s).1 (takenCurrent_pose s).1
    · exact (h.finding hf).imp (latchedNew_pose s).1 fun hn hp => (hn ((present_pose s).2 hp)).imp
        (latchedCurrent_pose s).1 (takenCurrent_pose s).1
    · exact (stagedCurrent_pose s).1 (h.taken ((taking_pose s).2 ht) ((pending_pose_ne s).2 hp))
  · rintro ⟨h, hp, hq⟩
    refine ⟨⟨fun hj => ?_, fun ht => ?_, fun hr => (taking_pose s).2 (h.released hr), fun ht hp => ?_, hp, hq⟩, fun hw => ?_,
      fun hp => h.present (mt (present_pose s).2 hp), ?_, fun hg ht => ?_, fun hu => ?_, fun hr => ?_, fun hf => ?_⟩
    · exact (buffer_filling _).2 (h.filling (hjob.1 hj))
    · exact (buffer_complete _).2 (h.complete ((taking_pose s).1 ht))
    · exact (stagedCurrent_pose s).2 (h.taken ((taking_pose s).1 ht) ((pending_pose_ne s).1 hp))
    · exact ⟨(h.waiting hw).1, (present_pose s).2 (h.waiting hw).2⟩
    · refine stage_pose.2 fun j hj => ?_
      rw [stagedCurrent_pose, taking_pose]
      exact (h.stage j hj).imp id (And.imp id fun hn hx => (buffer_complete _).2 (hn hx))
    · exact (empty_pose s).2 (h.guarded hg (htak.1 ht))
    · exact ⟨hlat.2 (h.unloaded hu).1, fun ht => (h.unloaded hu).2 ((taking_pose s).1 ht)⟩
    · exact (h.ready hr).imp (latchedCurrent_pose s).2 (takenCurrent_pose s).2
    · exact (h.finding hf).imp (latchedNew_pose s).2 fun hn hp => (hn ((present_pose s).1 hp)).imp
        (latchedCurrent_pose s).2 (takenCurrent_pose s).2

/-! ### The moves of a pose -/

namespace Pose

/-- R72: the staged pick discarded. While TAKING the order is held. -/
def discarded (p : Pose) : Pose :=
  if p.taking then p else { p with job := false, staged := .empty, stagedFeed := none }

/-- R111: the latched pick gone. -/
def dropped (p : Pose) : Pose := { p with latched := none, latchedFeed := none }

/-- R164: a guard entry to the state `x`; `drop` when every latch falls. -/
def stopped (x : SeqState) (drop : Bool) (p : Pose) : Pose :=
  { if drop && !p.taking then p.discarded.dropped else p.discarded with state := x, present := none, waiting := false }

variable {p : Pose}

theorem discarded_of_taking (h : p.taking = true) : p.discarded = p := if_pos h

theorem discarded_of_not_taking (h : p.taking = false) :
    p.discarded = { p with job := false, staged := .empty, stagedFeed := none } := by
  rw [discarded, h]
  rfl

theorem Settled.discard (h : p.Settled) : p.discarded.Settled := by
  cases ht : p.taking with
  | true => rw [discarded_of_taking ht]; exact h
  | false =>
    rw [discarded_of_not_taking ht]
    refine ⟨nofun, fun hx => ?_, h.released, fun hx => ?_, h.pendingReady, nofun⟩ <;> cases ht.symm.trans hx

theorem Settled.drop (h : p.Settled) : p.dropped.Settled :=
  ⟨h.filling, h.complete, h.released, fun _ hp => absurd rfl hp.2.1, fun hp => absurd rfl hp.2.1, h.stagedReady⟩

/-- What no clause of `Settled` looks at may change. -/
theorem Settled.setState (h : p.Settled) (x : SeqState) (g : Option Stage) (b : Bool) :
    { p with state := x, present := g, waiting := b }.Settled :=
  ⟨h.filling, h.complete, h.released, h.taken, h.pendingReady, h.stagedReady⟩

theorem Idle.setState (h : p.Idle) (x : SeqState) : { p with state := x }.Idle :=
  ⟨⟨h.filling, h.complete, h.released, h.taken, h.pendingReady, h.stagedReady⟩, h.present, h.waiting⟩

theorem Idle.discard (h : p.Idle) : p.discarded.Idle := by
  refine ⟨h.toSettled.discard, ?_, ?_⟩ <;> unfold discarded <;> split
  · exact h.present
  · exact h.present
  · exact h.waiting
  · exact h.waiting

/-- In these states nothing else is asked. -/
theorem Idle.sound (h : p.Idle) (hs : p.state = .presenting ∨ p.state = .running ∨ p.state = .stopping) : p.Sound := by
  refine ⟨h.toSettled, fun hw => ?_, fun hp => absurd h.present hp, fun g hg => ?_, fun hx => ?_, fun hx => ?_, fun hx => ?_,
    fun hx => ?_⟩
  · cases h.waiting.symm.trans hw
  · cases h.present.symm.trans hg
  all_goals rcases hs with hs | hs | hs <;> rw [hs] at hx <;> simp at hx

/-- READY, or FINDING as it begins and ends: on the latched pick. -/
theorem Idle.onLatched (h : p.Idle) (hs : p.state = .ready ∨ p.state = .finding ∧ p.latchedNew) (hl : p.latchedCurrent)
    (ht : p.takenCurrent) : p.Sound := by
  refine ⟨h.toSettled, fun hw => ?_, fun hp => absurd h.present hp, fun g hg => ?_, fun hx => ?_, fun hx => ?_,
    fun _ => ⟨hl, ht⟩, fun hx => ?_⟩
  · cases h.waiting.symm.trans hw
  · cases h.present.symm.trans hg
  · rcases hs with hs | hs <;> simp [hs] at hx
  · rcases hs with hs | hs <;> simp [hs] at hx
  · rcases hs with hs | hs
    · rw [hs] at hx; cases hx
    · exact ⟨hs.2, fun _ => ⟨hl, ht⟩⟩

theorem Sound.idle (h : p.Sound) (h1 : p.state ≠ .presenting) (h2 : p.state ≠ .finding) : p.Idle := by
  refine ⟨h.toSettled, ?_, ?_⟩
  · refine Classical.byContradiction fun hp => ?_
    rcases h.present hp with hs | hs
    · exact h1 hs
    · exact h2 hs
  · refine Bool.eq_false_iff.2 fun hw => ?_
    exact h1 (h.waiting hw).1

/-- A pending plan makes the latched pick the cursor pick. -/
theorem latchedCurrent_of_pending (h : p.pending) : p.latchedCurrent := fun _ hc => .inr (h.2.2.symm.trans hc)

theorem Settled.takenCurrent_of_pending (h : p.Settled) (hp : p.pending) : p.takenCurrent := fun ht => .inr (h.taken ht hp)

/-- R164: a guard entry asks only the clauses of every state. -/
theorem Settled.stop (h : p.Settled) {x : SeqState} (hx : x = .guard ∨ x = .halted) (drop : Bool) : (p.stopped x drop).Sound := by
  have hs : (p.stopped x drop).Settled := by
    unfold stopped
    split
    · exact h.discard.drop.setState ..
    · exact h.discard.setState ..
  have hempty : (p.stopped x drop).taking = false → (p.stopped x drop).job = false ∧ (p.stopped x drop).staged = .empty := by
    cases ht : p.taking <;> cases drop <;> simp [stopped, discarded, dropped, ht]
  refine ⟨hs, nofun, fun hp => absurd rfl hp, nofun, fun _ => hempty, fun hu => ?_, fun hu => ?_, fun hu => ?_⟩ <;>
    have hu : x = _ := hu <;> rcases hx with rfl | rfl <;> cases hu

/-- Planning changes feeders, not where the picks stand. -/
theorem Sound.refed (h : p.Sound) {a b : Option (Fin 8)} {r : Fin 8 → Bool} (hb : p.pending → ∀ f, b = some f → r f = true)
    (ha : ∀ f, a = some f → r f = true) : { p with stagedFeed := a, latchedFeed := b, ready := r }.Sound :=
  ⟨⟨h.filling, h.complete, h.released, h.taken, hb, ha⟩, h.waiting, h.present, h.stage, h.guarded, h.unloaded, h.steady, h.finding⟩

end Pose

end Sys2Proof.Machine
end

section
/-! PROOFS. What the operations make of a pose, and that the orders of a PRESENT job, the transfers, the triggers and the exit
from guard leave it sound. -/

namespace Sys2Proof.Machine

/-! ### Operations that leave the pose -/

theorem pose_congr {s t : State} (hq : t.seq = s.seq) (hx : t.xpe = s.xpe) (hl : t.hcc.latched = s.hcc.latched)
    (ht : t.hcc.isTaking = s.hcc.isTaking) (hr : t.hcc.holdsReleased = s.hcc.holdsReleased)
    (hf : t.wft.feeders = s.wft.feeders) : t.pose = s.pose := by
  unfold State.pose Wft.isReady
  rw [hq, hx, hl, ht, hr, hf]

/-- Buffers that hold the same pick with the same plan of a feeder. -/
theorem pose_staging {s t : State} (hq : t.seq = s.seq) (hj : t.xpe.job.isSome = s.xpe.job.isSome)
    (hb : t.xpe.staging.buffer = s.xpe.staging.buffer)
    (hp : t.xpe.staging.plan.bind (·.feeder) = s.xpe.staging.plan.bind (·.feeder)) (hl : t.hcc.latched = s.hcc.latched)
    (ht : t.hcc.isTaking = s.hcc.isTaking) (hr : t.hcc.holdsReleased = s.hcc.holdsReleased)
    (hf : t.wft.feeders = s.wft.feeders) : t.pose = s.pose := by
  unfold State.pose Wft.isReady
  rw [hq, hj, hb, hp, hl, ht, hr, hf]

theorem pose_modLink (l : LinkId) (f : Link → Link) (s : State) : (s.modLink l f).pose = s.pose := by cases l <;> rfl
theorem pose_raise (l : LinkId) (n : NoticeKind) (s : State) : (raise l n s).pose = s.pose := pose_modLink ..
theorem pose_answer (l : LinkId) (r : Response) (s : State) : (answer l r s).pose = s.pose := pose_modLink ..

theorem pose_departed (q : SeqState) (s : State) : (departed q s).pose = s.pose := by
  unfold departed; split
  · exact pose_raise ..
  · rfl

theorem State.Recounted.pose {s t : State} (h : s.Recounted t) : t.pose = s.pose := by rw [h.only]; rfl

theorem pose_answerModules (r : List Byte) (c : List Nat) (s : State) : (answerModules r c s).pose = s.pose :=
  pose_congr (by simp) (by simp) (by simp) (by simp [Hcc.isTaking]) (by simp) (by simp)

/-- A bus activity that is no TAKE gives way to another. -/
theorem pose_transfer {s : State} {x : Transfer} (ht : s.hcc.isTaking = false)
    (hx : { s.hcc with transfer := x }.isTaking = false) : { s with hcc := { s.hcc with transfer := x } }.pose = s.pose :=
  pose_congr rfl rfl rfl (hx.trans ht.symm) rfl rfl

theorem pose_endRefresh (s : State) : (endRefresh s).pose = s.pose := by
  refine pose_congr (by simp) (by simp) (endRefresh_latched s) (endRefresh_isTaking s) ?_ (by simp)
  unfold endRefresh
  split
  · simp
  · rfl

theorem pose_updateStatuses (st : List EchoStatus) (s : State) : (updateStatuses st s).pose = s.pose := by
  unfold updateStatuses
  generalize s.hcc.recordStatuses st = v
  exact pose_congr rfl rfl rfl rfl rfl rfl

theorem buffer_flagMismatch (n : Half) (x : Staging) : (x.flagMismatch n).buffer = x.buffer ∧
    (x.flagMismatch n).plan.bind (·.feeder) = x.plan.bind (·.feeder) := by
  have hp : ∀ p : Plan, (if p.serial = n then { p with echoMismatch := true } else p).cursor = p.cursor ∧
      (if p.serial = n then { p with echoMismatch := true } else p).feeder = p.feeder := by
    intro p; split <;> exact ⟨rfl, rfl⟩
  cases x with
  | empty => exact ⟨rfl, rfl⟩
  | filling p => exact ⟨congrArg Buffer.filling (hp p).1, (hp p).2⟩
  | complete p i => exact ⟨congrArg Buffer.complete (hp p).1, (hp p).2⟩

theorem pose_compareEcho (n : Half) (echo : List ModuleEcho) (s : State) : (compareEcho n echo s).pose = s.pose := by
  unfold compareEcho
  dsimp only
  split
  · exact pose_congr rfl rfl rfl rfl rfl rfl
  · rw [pose_raise]
    exact pose_staging rfl rfl (buffer_flagMismatch ..).1 (buffer_flagMismatch ..).2 rfl rfl rfl rfl

/-! ### Discards, guard entries and triggers -/

theorem pose_discardStaging (s : State) : (discardStaging s).pose = s.pose.discarded := by
  cases ht : s.hcc.isTaking with
  | true => rw [discardStaging_taking ht, Pose.discarded_of_taking ht]
  | false =>
    rw [Pose.discarded_of_not_taking (p := s.pose) ht]
    have hx := discardStaging_xpe ht
    have hh : (discardStaging s).hcc.latched = s.hcc.latched ∧ (discardStaging s).hcc.holdsReleased = s.hcc.holdsReleased := by
      rcases discardStaging_hcc s with e | e <;> rw [e] <;> exact ⟨rfl, rfl⟩
    have hf : (discardStaging s).wft.feeders = s.wft.feeders := by
      obtain ⟨g, e⟩ := discardStaging_wft s
      rw [e]
    unfold State.pose Wft.isReady
    rw [discardStaging_seq, hx, hh.1, hh.2, discardStaging_isTaking, hf]
    rfl

/-- DROP-ALL outside a TAKE. -/
theorem pose_dropAll {s : State} (ht : s.hcc.isTaking = false) : (dropAll s).pose = s.pose.dropped := by
  obtain ⟨e, r, hh, -⟩ := dropAll_hcc ht
  unfold State.pose Wft.isReady
  rw [dropAll_seq, dropAll_xpe, dropAll_wft, hh]
  exact congrArg (fun b => { s.pose.dropped with taking := b }) ht.symm

theorem pose_shedHooks (s : State) : (shedHooks s).pose = if decide (s.grd.shed = .close) && !s.pose.taking then s.pose.dropped
    else s.pose := by
  unfold shedHooks
  cases s.grd.shed with
  | hold =>
    cases ht : s.hcc.isTaking with
    | true => exact congrArg State.pose (abandonTransfer_taking ht)
    | false =>
      obtain ⟨e, r, hh, -⟩ := abandonTransfer_hcc ht
      exact pose_congr (by simp) (by simp) (by rw [hh]) (by rw [hh, ht]; rfl) (by rw [hh]) (by simp)
  | close =>
    cases ht : s.hcc.isTaking with
    | true =>
      have ht' : s.pose.taking = true := ht
      rw [ht']
      exact (congrArg State.pose (dropAll_taking ht)).trans (pose_congr rfl rfl rfl rfl rfl rfl)
    | false =>
      have ht' : s.pose.taking = false := ht
      rw [ht']
      exact pose_dropAll ht

theorem pose_seqIntoGuard (h : Bool) (s : State) : (seqIntoGuard h s).pose =
    { s.pose with state := if h then .halted else .guard, present := none, waiting := false } := by
  unfold seqIntoGuard
  rw [pose_departed]
  rfl

theorem pose_entryNotices (h : Bool) (s : State) : (entryNotices h s).pose = s.pose := by cases h <;> rfl

theorem pose_guardEntry (t : Trigger) (s : State) : (guardEntry t s).pose =
    s.pose.stopped (if s.grd.entersHalted t then .halted else .guard) (decide (s.grd.shed = .close)) := by
  have hd := pose_discardStaging (interruptWindow (recordEntry t s))
  have hg : (discardStaging (interruptWindow (recordEntry t s))).grd.shed = s.grd.shed := by rw [discardStaging_grd]; rfl
  have hp : (interruptWindow (recordEntry t s)).pose = s.pose := rfl
  have ht : s.pose.discarded.taking = s.pose.taking := by unfold Pose.discarded; split <;> rfl
  unfold guardEntry
  rw [pose_entryNotices, pose_seqIntoGuard, pose_shedHooks, hd, hg, hp, ht]
  rfl

theorem sound_guardEntry (t : Trigger) {s : State} (h : s.pose.Settled) : (guardEntry t s).pose.Sound := by
  rw [pose_guardEntry]
  refine h.stop ?_ _
  split
  · exact .inr rfl
  · exact .inl rfl

theorem sound_trigger (t : Trigger) {s : State} (h : s.pose.Sound) : (trigger t s).pose.Sound := by
  rcases trigger_cases t s with ⟨_, e⟩ | ⟨_, _, e⟩ | ⟨_, _, e⟩ | ⟨_, _, e⟩ <;> rw [e]
  · exact h
  · exact h
  · exact h
  · exact sound_guardEntry (s := countTrigger t s) t h.toSettled

theorem sound_triggerWhen (b : Bool) (t : Trigger) {s : State} (h : s.pose.Sound) : (triggerWhen b t s).pose.Sound := by
  cases b
  · exact h
  · exact sound_trigger t h

/-! ### Jobs and transfers -/

theorem pose_begun (j : Job) (w : Wft) (q : Plan) {s : State} (hw : w.feeders = s.wft.feeders) :
    { s with wft := w, xpe := ⟨some j, .filling q⟩ }.pose =
      { s.pose with job := true, staged := .filling q.cursor, stagedFeed := q.feeder } := by
  unfold State.pose Wft.isReady
  dsimp only
  rw [hw]
  rfl

/-- R62: a job for the cursor pick, its plan among the READY feeders. -/
theorem Pose.Sound.fill {p : Pose} (h : p.Sound) {c : Cursor} {f : Option (Fin 8)} (hc : p.cursor = some c)
    (ht : p.taking = false) (hg : ¬(p.state = .guard ∨ p.state = .halted)) (hp : ∀ g, p.present = some g → g = .expanding)
    (hf : ∀ i, f = some i → p.ready i = true) : { p with job := true, staged := .filling c, stagedFeed := f }.Sound := by
  have hn : ∀ {q : Prop}, p.taking = true → q := fun hx => by cases ht.symm.trans hx
  refine ⟨⟨fun _ => ⟨c, rfl⟩, hn, h.released, fun hx => hn hx, h.pendingReady, hf⟩, h.waiting, h.present, fun g hg => ?_,
    fun hx => absurd hx hg, h.unloaded, fun hx => ⟨(h.steady hx).1, hn⟩, fun hx => ⟨(h.finding hx).1, fun hp =>
      ⟨((h.finding hx).2 hp).1, hn⟩⟩⟩
  refine ⟨fun d hd => hc.trans hd, ?_, fun hx => absurd (hp g hg) hx⟩
  rw [hp g hg]
  exact ⟨nofun, hn⟩

theorem sound_startJob (k : JobKind) {s : State} (h : s.pose.Sound) (ht : s.pose.taking = false)
    (hg : ¬(s.seq.state = .guard ∨ s.seq.state = .halted)) (hp : ∀ g, s.pose.present = some g → g = .expanding) :
    (startJob k s).pose.Sound := by
  unfold startJob
  split
  · exact h
  next c hc =>
    have hw : (s.wft.choose (s.cardOf c).weft).wft.feeders = s.wft.feeders := by
      obtain ⟨g, e⟩ := choose_wft s.wft (s.cardOf c).weft
      rw [e]
    refine sound_triggerWhen _ _ ?_
    rw [(recounted_claim ..).pose, pose_begun _ _ _ hw]
    exact h.fill hc ht hg hp fun i hi => (ready_pose s i).2 (choose_ready hi)

/-- R65: the expansion of the job in flight completes. -/
theorem Pose.Sound.fillUp {p : Pose} (h : p.Sound) (hj : p.job = true) :
    ∃ c, p.staged = .filling c ∧ { p with job := false, staged := .complete c }.Sound := by
  obtain ⟨c, hc⟩ := h.filling hj
  have hcur : ∀ d, p.staged.cursor = some d ↔ (Buffer.complete c).cursor = some d := by rw [hc]; exact fun _ => Iff.rfl
  have hst : p.stagedCurrent → ∀ d, (Buffer.complete c).cursor = some d → p.cursor = some d :=
    fun hx d hd => hx d ((hcur d).2 hd)
  have ht : p.takenCurrent → { p with job := false, staged := .complete c }.takenCurrent :=
    fun hx ht => (hx ht).imp id hst
  refine ⟨c, hc, ⟨nofun, fun _ => ⟨c, rfl⟩, h.released, fun hx hp => hst (h.taken hx hp), h.pendingReady, h.stagedReady⟩,
    h.waiting, h.present, fun g hg => ?_, fun hx hn => ?_, h.unloaded, fun hx => (h.steady hx).imp id ht,
    fun hx => (h.finding hx).imp id fun hn hp => (hn hp).imp id ht⟩
  · exact ⟨hst (h.stage g hg).1, (h.stage g hg).2.1, fun _ => ⟨c, rfl⟩⟩
  · cases hj.symm.trans (h.guarded hx hn).1

theorem sound_completeJob {s : State} {j : Job} (h : s.pose.Sound) (hj : s.xpe.job = some j) :
    (completeJob j s).pose.Sound ∧ ∃ c, (completeJob j s).pose.staged = .complete c := by
  obtain ⟨c, hc, hs⟩ := h.fillUp (congrArg Option.isSome hj)
  obtain ⟨q, hq⟩ := (buffer_filling s.xpe.staging).1 ⟨c, hc⟩
  have hqc : Buffer.filling q.cursor = .filling c := (congrArg Staging.buffer hq).symm.trans hc
  have e : (completeJob j s).pose = { s.pose with job := false, staged := .complete c } := by
    injection hqc with hqc
    unfold completeJob
    rw [hq]
    show _ = Pose.mk ..
    dsimp only [State.pose]
    rw [hq, ← hqc]
    rfl
  rw [e]
  exact ⟨hs, c, rfl⟩

theorem sound_transferResults (n : Half) (echo : List ModuleEcho) {s : State} (h : s.pose.Sound)
    (ht : s.pose.taking = false) : (transferResults n echo s).pose.Sound := by
  have e : (updateStatuses (echo.map (·.status)) (compareEcho n echo s)).pose = s.pose := by
    rw [pose_updateStatuses, pose_compareEcho]
  unfold transferResults
  dsimp only
  generalize updateStatuses (echo.map (·.status)) (compareEcho n echo s) = u at e ⊢
  have hu : { u with hcc := { u.hcc with transfer := .shifted n } }.pose = s.pose :=
    (pose_transfer ((congrArg Pose.taking e).trans ht) rfl).trans e
  refine sound_triggerWhen _ _ (s := reportLevel _) ?_
  exact sound_triggerWhen _ _ (by rw [hu]; exact h)

/-- R70: the TAKE of a PRESENT job. -/
theorem Pose.Sound.take {p : Pose} (h : p.Sound) (hp : p.present = some .transferring) :
    { p with present := some .taking, taking := true }.Sound := by
  obtain ⟨hc, -, hs⟩ := h.stage _ hp
  have hst := hs nofun
  have hin := h.present (by rw [hp]; nofun)
  refine ⟨⟨h.filling, fun _ => hst, fun _ => rfl, fun _ _ => hc, h.pendingReady, h.stagedReady⟩, fun hw => ?_, fun _ => hin,
    fun g hg => ?_, nofun, fun hx => ?_, fun hx => ?_, fun hx => ⟨(h.finding hx).1, nofun⟩⟩
  · cases hp.symm.trans (h.waiting hw).2
  · cases hg; exact ⟨hc, ⟨fun _ => rfl, fun _ => rfl⟩, fun _ => hst⟩
  all_goals rcases hin with hi | hi <;> cases hi.symm.trans hx

theorem sound_reportTransfer (n : Half) {s : State} (h : s.pose.Sound) : (reportTransfer n s).pose.Sound := by
  unfold reportTransfer
  split
  · split
    next j hj =>
      split
      next hst =>
        have hp : s.pose.present = some .transferring := by
          show s.seq.present.map _ = _
          rw [hj]; exact congrArg some hst
        exact h.take hp
      · exact h
    · exact h
  · exact h

theorem sound_startTransfer {s : State} (h : s.pose.Sound) : (startTransfer s).pose.Sound := by
  unfold startTransfer
  split
  · exact h
  next p i hx hnt =>
    have ht : s.hcc.isTaking = false := by
      cases hc : s.hcc.transfer <;> simp [Hcc.isTaking, hc]
      exact hnt _ hc
    have e : { endRefresh s with hcc := { (endRefresh s).hcc with transfer := .shifting p.serial } }.pose = s.pose :=
      (pose_transfer ((endRefresh_isTaking s).trans ht) rfl).trans (pose_endRefresh s)
    have key : ∀ u : State, u.pose = s.pose →
        (if u.hcc.census = 0 then reportTransfer p.serial (transferResults p.serial [] u) else u).pose.Sound := by
      intro u e
      rw [← e] at h
      split
      · exact sound_reportTransfer _ (sound_transferResults _ _ h ((congrArg Pose.taking e).trans ht))
      · exact h
    exact key _ e
  · exact h
  · exact h

theorem sound_reportExpansion {s : State} (h : s.pose.Sound) (hc : ∃ c, s.pose.staged = .complete c) :
    (reportExpansion s).pose.Sound := by
  unfold reportExpansion
  split
  next j hj =>
    split
    next hst =>
      have hp : s.pose.present = some .expanding := by
        show s.seq.present.map _ = _
        rw [hj]; exact congrArg some hst
      obtain ⟨hcur, ht, -⟩ := h.stage _ hp
      have hnt : ∀ {q : Prop}, s.pose.taking = true → q := fun hx => by cases ht.2 hx
      refine sound_startTransfer ⟨⟨h.filling, h.complete, h.released, h.taken, h.pendingReady, h.stagedReady⟩, fun hw => ?_,
        fun _ => h.present (by rw [hp]; nofun), fun g hg => ?_, h.guarded, h.unloaded, h.steady,
        fun hx => ⟨(h.finding hx).1, nofun⟩⟩
      · cases hp.symm.trans (h.waiting hw).2
      · cases hg; exact ⟨hcur, ⟨nofun, hnt⟩, fun _ => hc⟩
    · exact h
  · exact h

/-! ### The PRESENT job -/

theorem pose_beginPresent (g : Stage) (s : State) :
    (beginPresent g s).pose = { s.pose with present := s.pose.cursor.map fun _ => g } := by
  have e : (s.seq.cursor.map fun c => (⟨c, g⟩ : PresentJob)).map (·.stage) = s.seq.cursor.map fun _ => g := by
    cases s.seq.cursor <;> rfl
  exact congrArg (fun x => { s.pose with present := x }) e

/-- Where an order of a PRESENT job is taken at once. -/
def Pose.orderable (p : Pose) : Prop :=
  p.state = .presenting ∨ p.state = .finding ∧ p.latchedNew ∧ p.cursor ≠ none ∧ p.taking = false

/-- R69: the PRESENT job begins. -/
theorem Pose.Idle.begin {p : Pose} (h : p.Idle) (ht : p.taking = false) (hs : p.orderable) {g : Stage} (hg : g ≠ .taking)
    (hcur : p.stagedCurrent) (hc : g ≠ .expanding → ∃ c, p.staged = .complete c) :
    { p with present := p.cursor.map fun _ => g }.Sound := by
  have hnt : ∀ {q : Prop}, p.taking = true → q := fun hx => by cases ht.symm.trans hx
  refine ⟨⟨h.filling, h.complete, h.released, h.taken, h.pendingReady, h.stagedReady⟩, fun hw => ?_, fun _ => ?_,
    fun x hx => ?_, fun hx => ?_, fun hx => ?_, fun hx => ?_, fun hx => ?_⟩
  · cases h.waiting.symm.trans hw
  · exact hs.imp id And.left
  · obtain ⟨-, -, rfl⟩ := Option.map_eq_some_iff.1 hx
    exact ⟨hcur, ⟨fun he => absurd he hg, hnt⟩, hc⟩
  · rcases hs with hs | ⟨hs, -⟩ <;> rw [show p.state = _ from hs] at hx <;> simp at hx
  · rcases hs with hs | ⟨hs, -⟩ <;> cases hs.symm.trans hx
  · rcases hs with hs | ⟨hs, -⟩ <;> cases hs.symm.trans hx
  · rcases hs with hs | ⟨-, hn, hd, -⟩
    · cases hs.symm.trans hx
    · exact ⟨hn, fun he => absurd (Option.map_eq_none_iff.1 he) hd⟩

theorem stagedCurrent_of_belongs {s : State} (h : s.stagedBelongs = true) : s.pose.stagedCurrent := by
  refine (stagedCurrent_pose s).2 fun q hq => ?_
  rw [State.stagedBelongs, hq] at h
  exact of_decide_eq_true h

theorem Pose.orderable.discard {p : Pose} (h : p.orderable) (ht : p.taking = false) : p.discarded.orderable := by
  rw [Pose.discarded_of_not_taking ht]
  exact h

theorem Pose.orderable.not_guard {p : Pose} (h : p.orderable) : ¬(p.state = .guard ∨ p.state = .halted) := by
  rcases h with h | ⟨h, -⟩ <;> rw [h] <;> decide

theorem sound_presentCursor {s : State} (h : s.pose.Idle) (ht : s.pose.taking = false) (hs : s.pose.orderable) :
    (presentCursor s).pose.Sound := by
  unfold presentCursor
  split
  next hx hb =>
    refine sound_startTransfer ?_
    rw [pose_beginPresent]
    refine h.begin ht hs nofun (stagedCurrent_of_belongs hb) fun _ => ?_
    exact (buffer_complete _).2 ⟨_, _, hx⟩
  next c n _ hj hb =>
    have e : { s with xpe := { s.xpe with job := some ⟨.present, c, n⟩ } }.pose = s.pose :=
      pose_staging rfl (congrArg Option.isSome hj).symm rfl rfl rfl rfl rfl rfl
    rw [pose_beginPresent, e]
    exact h.begin ht hs nofun (stagedCurrent_of_belongs hb) (absurd rfl)
  · have hd : (discardStaging s).pose = s.pose.discarded := pose_discardStaging s
    have htd : s.pose.discarded.taking = false := by rw [Pose.discarded_of_not_taking ht]; exact ht
    have hb : (beginPresent .expanding (discardStaging s)).pose =
        { s.pose.discarded with present := s.pose.discarded.cursor.map fun _ => .expanding } := by
      rw [pose_beginPresent, hd]
    refine sound_startJob _ ?_ ?_ ?_ ?_
    · rw [hb]
      refine h.discard.begin htd (hs.discard ht) nofun ?_ (absurd rfl)
      rw [Pose.discarded_of_not_taking ht]
      exact fun _ => nofun
    · rw [hb]; exact htd
    · show ¬((discardStaging s).seq.state = .guard ∨ (discardStaging s).seq.state = .halted)
      rw [discardStaging_seq]
      exact hs.not_guard
    · rw [hb]
      exact fun g hg => (Option.map_eq_some_iff.1 hg).elim fun _ hx => hx.2.symm

/-- R71, R134 step 1: after the end of a PRESENT job none runs. -/
theorem pose_endPresent (s : State) : (endPresent s).pose = s.pose ∧ s.pose.present = none ∨
    (endPresent s).pose = { s.pose with present := none }.discarded := by
  unfold endPresent
  split
  next hp => exact .inl ⟨rfl, (present_pose s).2 hp⟩
  · exact .inr (pose_discardStaging _)

theorem idle_endPresent {s : State} (h : s.pose.Settled) (hw : s.pose.waiting = false) : (endPresent s).pose.Idle := by
  rcases pose_endPresent s with ⟨e, hp⟩ | e <;> rw [e]
  · exact ⟨h, hp, hw⟩
  · exact Pose.Idle.discard ⟨⟨h.filling, h.complete, h.released, h.taken, h.pendingReady, h.stagedReady⟩, rfl, hw⟩

theorem sound_orderPresent {s : State} (h : s.pose.Idle) (hs : s.pose.orderable) : (orderPresent s).pose.Sound := by
  cases ht : s.hcc.isTaking with
  | true =>
    have hq : s.pose.state = .presenting := hs.resolve_right fun ⟨_, _, _, hn⟩ => by cases ht.symm.trans hn
    rw [orderPresent_taking ht]
    refine ⟨⟨h.filling, h.complete, h.released, h.taken, h.pendingReady, h.stagedReady⟩, fun _ => ⟨hq, h.present⟩,
      fun hp => absurd h.present hp, fun g hg => ?_, fun hx => ?_, fun hx => ?_, fun hx => ?_, fun hx => ?_⟩
    · cases h.present.symm.trans hg
    · rcases hx with hx | hx <;> cases hq.symm.trans hx
    all_goals cases hq.symm.trans hx
  | false =>
    have e : endPresent s = s := by unfold endPresent; rw [(present_pose s).1 h.present]
    rw [orderPresent_not_taking ht, e]
    exact sound_presentCursor h ht hs

/-! ### READY, PRESENTING and the way out of guard -/

theorem sound_enterPresenting {s : State} (h : s.pose.Idle) : (enterPresenting s).pose.Sound :=
  sound_orderPresent (h.setState .presenting) (.inl rfl)

/-- READY on the latched pick. -/
theorem sound_enterReady {s : State} (h : s.pose.Idle) (hl : s.pose.latchedCurrent) (ht : s.pose.takenCurrent) :
    (enterReady s).pose.Sound :=
  (h.setState .ready).onLatched (.inl rfl) hl ht

theorem sound_enterReady_of_belongs {s : State} (h : s.pose.Idle) (hb : s.latchedBelongs = true) : (enterReady s).pose.Sound := by
  have hp := (pending_pose_ne s).2 (latchedBelongs_iff.1 hb)
  exact sound_enterReady h (Pose.latchedCurrent_of_pending hp) (h.takenCurrent_of_pending hp)

theorem sound_represent {s : State} (h : s.pose.Idle) : (represent s).pose.Sound := by
  rw [represent, pose_departed]
  exact sound_enterPresenting h

theorem Pose.Sound.idle_of_ready {p : Pose} (h : p.Sound) (hr : p.state = .ready) : p.Idle :=
  h.idle (by rw [hr]; decide) (by rw [hr]; decide)

theorem sound_presentOwed {s : State} (h : s.pose.Sound) : (presentOwed s).pose.Sound := by
  unfold presentOwed
  split
  next hr => exact sound_represent (h.idle_of_ready hr.1)
  · exact h

theorem sound_guardExit {s : State} (h : s.pose.Sound) (hg : s.seq.state = .guard ∨ s.seq.state = .halted) :
    (guardExit s).pose.Sound := by
  have hi : s.pose.Idle := by
    refine h.idle (fun hx => ?_) (fun hx => ?_) <;> rcases hg with hg | hg <;> cases hg.symm.trans hx
  unfold guardExit
  dsimp only
  split
  next hr =>
    rw [State.exitsReady, Bool.and_eq_true] at hr
    refine sound_enterReady_of_belongs (s := raise .d .guardLeft (raise .p .guardLeft _)) ?_ hr.1
    exact hi
  · exact sound_enterPresenting (s := raise .d .guardLeft (raise .p .guardLeft _)) hi

theorem sound_exitCheck {s : State} (h : s.pose.Sound) : (exitCheck s).pose.Sound := by
  unfold exitCheck
  split
  next hg => exact sound_presentOwed (sound_guardExit h (.inl hg.1))
  · exact h

end Sys2Proof.Machine
end

section
/-! PROOFS. Re-planning and the changes of a feeder leave the pose sound: the picks stay where they stand, and every plan
names a READY feeder again. -/

namespace Sys2Proof.Machine

/-! ### A pose without its plans -/

/-- The pose with the planned feeders left out. -/
def Pose.unfed (p : Pose) : Pose := { p with stagedFeed := none, latchedFeed := none }

theorem Pose.Sound.unfed {p : Pose} (h : p.Sound) : p.unfed.Sound := h.refed (fun _ => nofun) nofun

theorem sound_of_plans {s : State} (h : s.pose.unfed.Sound) (hp : ∀ x, s.pendingPlan = some x → s.wft.Serves x)
    (hq : ∀ x, s.xpe.staging.plan = some x → s.wft.Serves x) : s.pose.Sound := by
  obtain ⟨hb, ha⟩ := (plansReady_pose s).1 ⟨fun p f hx => hp p hx f, fun q f hx => hq q hx f⟩
  exact h.refed hb ha

theorem serves_pending {s : State} (h : s.pose.Sound) : ∀ x, s.pendingPlan = some x → s.wft.Serves x :=
  fun p hp f => ((sound_pose s).1 h).2.1 p f hp

theorem serves_staged {s : State} (h : s.pose.Sound) : ∀ x, s.xpe.staging.plan = some x → s.wft.Serves x :=
  fun q hq f => ((sound_pose s).1 h).2.2 q f hq

theorem isReady_of_feeders {v w : Wft} (h : v.feeders = w.feeders) : v.isReady = w.isReady := by
  unfold Wft.isReady
  rw [h]

theorem serves_of_feeders {v w : Wft} {p : Plan} (h : v.feeders = w.feeders) : v.Serves p ↔ w.Serves p := by
  unfold Wft.Serves
  rw [h]

theorem buffer_modPlan (x : Staging) (c : Choice) : (x.modPlan (·.withChoice c)).buffer = x.buffer := by cases x <;> rfl

theorem cursor_modPlan (x : Latched) (c : Choice) :
    (x.modPlan (·.withChoice c)).plan.map (·.cursor) = x.plan.map (·.cursor) := by cases x <;> rfl

theorem unfed_congr {s t : State} (hq : t.seq = s.seq) (hj : t.xpe.job = s.xpe.job)
    (hb : t.xpe.staging.buffer = s.xpe.staging.buffer)
    (hl : t.hcc.latched.plan.map (·.cursor) = s.hcc.latched.plan.map (·.cursor)) (ht : t.hcc.isTaking = s.hcc.isTaking)
    (hr : t.hcc.holdsReleased = s.hcc.holdsReleased) (hf : t.wft.feeders = s.wft.feeders) : t.pose.unfed = s.pose.unfed := by
  unfold State.pose Pose.unfed
  rw [hq, hj, hb, hl, ht, hr, isReady_of_feeders hf]

theorem unfed_replanPending (back : Bool) (s : State) : (replanPending back s).pose.unfed = s.pose.unfed := by
  have hf := (kept_replanPending back s).feeders
  unfold replanPending at hf ⊢
  split
  · rfl
  next hp =>
    rw [hp] at hf
    exact unfed_congr rfl rfl rfl (cursor_modPlan ..) rfl rfl hf

theorem unfed_replanStaged (back : Bool) (s : State) : (replanStaged back s).pose.unfed = s.pose.unfed := by
  have hf := (kept_replanStaged back s).feeders
  unfold replanStaged at hf ⊢
  split
  · rfl
  next hp =>
    rw [hp] at hf
    exact unfed_congr rfl rfl (buffer_modPlan ..) rfl rfl rfl hf

/-! ### Re-planning -/

theorem sound_replanned (b p q : Bool) {s : State} (h : s.pose.Sound) : (replanned b p q s).pose.Sound := by
  unfold replanned
  refine sound_triggerWhen _ _ ?_
  split
  · rw [pose_raise, pose_raise]; exact h
  · rw [pose_raise]; exact h

/-- R84, R85: a re-plan of the plans that may name a feeder not READY. -/
theorem sound_replan {s : State} {p q : Bool} (h : s.pose.unfed.Sound)
    (hp : p = false → ∀ x, s.pendingPlan = some x → s.wft.Serves x)
    (hq : q = false → ∀ x, s.xpe.staging.plan = some x → s.wft.Serves x) : (replan p q s).pose.Sound := by
  obtain ⟨v, hv⟩ : ∃ v, v = if p then replanPending true s else s := ⟨_, rfl⟩
  have hfeed : v.wft.feeders = s.wft.feeders := by
    rw [hv]; cases p
    · rfl
    · exact (kept_replanPending true s).feeders
  have hxpe : v.xpe = s.xpe := by
    rw [hv]; cases p
    · rfl
    · exact (replanPending_keeps true s).1
  have hunfed : v.pose.unfed = s.pose.unfed := by
    rw [hv]; cases p
    · rfl
    · exact unfed_replanPending true s
  have hpv : ∀ x, v.pendingPlan = some x → v.wft.Serves x := fun x hx => by
    refine (serves_of_feeders hfeed).2 ?_
    rw [hv] at hx; cases p
    · exact hp rfl x hx
    · exact serves_replanPending true hx
  unfold replan
  split
  next =>
    dsimp only
    rw [← hv]
    refine sound_replanned _ _ _ ?_
    cases q with
    | false =>
      refine sound_of_plans (by rw [if_neg nofun, hunfed]; exact h) hpv fun x hx => (serves_of_feeders hfeed).2 ?_
      rw [if_neg nofun, hxpe] at hx
      exact hq rfl x hx
    | true =>
      have hfs := fun b => (kept_replanStaged b v).feeders
      rw [if_pos rfl]
      refine sound_of_plans (by rw [unfed_replanStaged, hunfed]; exact h) (fun x hx => ?_) fun x hx => ?_
      · rw [pendingPlan_replanStaged] at hx
        exact (serves_of_feeders (hfs _)).2 (hpv x hx)
      · exact (serves_of_feeders (hfs _)).2 (serves_replanStaged _ hx)
  next hn =>
    rw [Bool.or_eq_true, not_or, Bool.not_eq_true, Bool.not_eq_true] at hn
    exact sound_of_plans h (hp hn.1) (hq hn.2)

theorem sound_replanAfresh (g : Fin 8) {s : State} (h : s.pose.Sound) : (replanAfresh g s).pose.Sound := by
  unfold replanAfresh
  split
  · split
    · have hf := (kept_replanPending false s).feeders
      refine sound_replanned _ _ _ (sound_of_plans ?_ (fun x hx => ?_) fun x hx => ?_)
      · rw [unfed_replanPending]; exact h.unfed
      · exact (serves_of_feeders hf).2 (serves_replanPending false hx)
      · rw [(replanPending_keeps false s).1] at hx
        exact (serves_of_feeders hf).2 (serves_staged h x hx)
    · exact h
  · exact h

/-! ### A feeder's record changes -/

theorem serves_setFeeder {w : Wft} {i : Fin 8} {x : Feeder} {p : Plan} (h : w.Serves p)
    (hx : p.feeder = some i → x.state = .ready) : (w.setFeeder i x).Serves p := by
  intro f hf
  show ((upd w.feeders i x).get f).state = .ready
  rw [get_upd_eq]
  split
  next e => subst e; exact hx hf
  · exact h f hf

theorem isReady_setFeeder {w : Wft} {i : Fin 8} {x : Feeder} (h : x.state = .ready ↔ (w.feeders.get i).state = .ready) :
    (w.setFeeder i x).isReady = w.isReady := by
  funext f
  unfold Wft.isReady Wft.setFeeder
  dsimp only
  rw [get_upd_eq]
  split
  next e => subst e; exact decide_eq_decide.2 h
  · rfl

/-- A record whose state stays READY, or stays another one. -/
theorem pose_setFeeder {s : State} {i : Fin 8} {x : Feeder} (h : x.state = .ready ↔ (s.wft.feeders.get i).state = .ready) :
    { s with wft := s.wft.setFeeder i x }.pose = s.pose := by
  unfold State.pose
  rw [isReady_setFeeder h]

/-- R84: the re-plan when feeder `i` has left READY. -/
theorem sound_replanFrom {s u : State} {i : Fin 8} {x : Feeder} (h : s.pose.Sound)
    (hu : u.pose = { s with wft := s.wft.setFeeder i x }.pose) (hp : u.pendingPlan = s.pendingPlan)
    (hx : u.xpe = s.xpe) (hw : u.wft = s.wft.setFeeder i x) : (replanFrom i u).pose.Sound := by
  refine sound_replan ?_ (fun hn y hy => ?_) fun hn y hy => ?_
  · rw [hu]; exact h.refed (fun _ => nofun) nofun
  · rw [hw]
    refine serves_setFeeder (serves_pending h y (hp.symm.trans hy)) fun hi => ?_
    cases hn.symm.trans (planNames_iff.2 ⟨y, hy, hi⟩)
  · rw [hw]
    refine serves_setFeeder (serves_staged h y (by rw [← hx]; exact hy)) fun hi => ?_
    cases (Bool.or_eq_false_iff.1 hn).1.symm.trans (planNames_iff.2 ⟨y, hy, hi⟩)

/-- R85: the fill when feeder `i` has entered READY. -/
theorem sound_fillPlans {s u : State} {i : Fin 8} {x : Feeder} (h : s.pose.Sound)
    (hu : u.pose = { s with wft := s.wft.setFeeder i x }.pose) (hp : u.pendingPlan = s.pendingPlan)
    (hx : u.xpe = s.xpe) (hw : u.wft = s.wft.setFeeder i x) (hr : x.state = .ready) : (fillPlans u).pose.Sound := by
  refine sound_replan ?_ (fun _ y hy => ?_) fun _ y hy => ?_
  · rw [hu]; exact h.refed (fun _ => nofun) nofun
  · rw [hw]; exact serves_setFeeder (serves_pending h y (hp.symm.trans hy)) fun _ => hr
  · rw [hw]; exact serves_setFeeder (serves_staged h y (by rw [← hx]; exact hy)) fun _ => hr

theorem sound_changeFeeder (i : Fin 8) (g : Feeder → Feeder) {s : State} (h : s.pose.Sound) :
    (changeFeeder i g s).pose.Sound := by
  unfold changeFeeder
  dsimp only
  split
  next he => rw [pose_setFeeder (by rw [he])]; exact h
  next hne =>
    split
    · exact sound_replanFrom h rfl rfl rfl rfl
    next ho =>
      split
      next hn => exact sound_fillPlans h rfl rfl rfl rfl hn
      next hn =>
        rw [pose_raise, pose_setFeeder ⟨fun hx => absurd hx hn, fun hx => absurd hx ho⟩]
        exact h

/-! ### Accounting -/

theorem pose_accountCommit (f : Option (Fin 8)) (s : State) : (accountCommit f s).pose = s.pose := by
  cases f with
  | none => rfl
  | some i => exact pose_setFeeder Iff.rfl

theorem sound_accountFailure (f : Option (Fin 8)) {s : State} (h : s.pose.Sound) : (accountFailure f s).pose.Sound := by
  cases f with
  | none => exact h
  | some i =>
    unfold accountFailure
    dsimp only
    split
    · exact sound_replanFrom h rfl rfl rfl rfl
    · rw [pose_setFeeder (x := (s.wft.feeders.get i).failVerdict) Iff.rfl]; exact h

end Sys2Proof.Machine
end

section
/-! PROOFS. Commits, verdicts, find steps, rest, the schedule angles and the end of a TAKE leave the pose sound. -/

namespace Sys2Proof.Machine

/-! ### The cursor moves -/

/-- The cursor on a pick that is not the latched one: nothing is pending. -/
theorem Pose.Idle.moveTo {p : Pose} (h : p.Idle) {c : Cursor} {l : List Cursor} (hn : p.released = true ∨ p.latched ≠ some c) :
    { p with cursor := some c, past := l }.Idle := by
  have hp : ¬{ p with cursor := some c, past := l }.pending := fun ⟨hr, _, hl⟩ =>
    hn.elim (fun hx => by cases hx.symm.trans hr) fun hx => hx hl
  exact ⟨⟨h.filling, h.complete, h.released, fun _ hx => absurd hx hp, fun hx => absurd hx hp, h.stagedReady⟩, h.present,
    h.waiting⟩

theorem pose_moveCursor (c : Cursor) (s : State) : (moveCursor c s).pose =
    if s.seq.cursor = some c then { s.pose with cursor := some c } else { s.pose with cursor := some c }.discarded := by
  have hp : (placeCursor s.seq.state c s).pose = { s.pose with cursor := some c } := (recounted_placeCursor ..).pose
  show (if s.seq.cursor = some c then placeCursor s.seq.state c s else discardStaging (placeCursor s.seq.state c s)).pose = _
  split
  · exact hp
  · rw [pose_discardStaging, hp]

theorem idle_moveCursor {c : Cursor} {s : State} (h : s.pose.Idle) (hn : s.pose.released = true ∨ s.pose.latched ≠ some c) :
    (moveCursor c s).pose.Idle ∧ (moveCursor c s).pose.state = s.pose.state := by
  have hm : { s.pose with cursor := some c }.Idle := h.moveTo (l := s.pose.past) hn
  rw [pose_moveCursor]
  split
  · exact ⟨hm, rfl⟩
  · refine ⟨hm.discard, ?_⟩
    unfold Pose.discarded
    split <;> rfl

/-! ### The commit -/

theorem pose_recorded (p : Plan) (s : State) :
    (recorded p s).pose = { s.pose with past := (s.seq.joined (s.entryAt p)).history.map (·.cursor) } :=
  (recounted_appendEntry (s.entryAt p) s).pose

theorem Pose.Idle.setPast {p : Pose} (h : p.Idle) (l : List Cursor) : { p with past := l }.Idle :=
  ⟨⟨h.filling, h.complete, h.released, h.taken, h.pendingReady, h.stagedReady⟩, h.present, h.waiting⟩

/-- R57: the cursor goes on, past the pick that has been latched. -/
theorem idle_commitCore {p : Plan} {s : State} (hp : s.pendingPlan = some p) (h : s.pose.Idle) :
    (commitCore p s).pose.Idle ∧ (commitCore p s).pose.state = s.pose.state := by
  have hr : (recorded p s).pose.Idle ∧ (recorded p s).pose.state = s.pose.state := by
    rw [pose_recorded]; exact ⟨h.setPast _, rfl⟩
  have hl : s.pose.latched = some p.cursor := by
    show s.hcc.latched.plan.map _ = _
    rw [(pendingPlan_eq_some.1 hp).1]
    rfl
  have hne : ∀ c : Cursor, c.serial = p.cursor.serial + 1 → (recorded p s).pose.latched ≠ some c := by
    intro c hc he
    rw [pose_recorded] at he
    have hpc : p.cursor = c := Option.some.inj (hl.symm.trans he)
    rw [← hpc] at hc
    exact absurd hc (by unfold Cursor.serial at *; bv_omega)
  rw [commitCore_eq]
  split
  next c _ =>
    obtain ⟨h1, h2⟩ := idle_moveCursor (c := (recorded p s).target c p.cursor) hr.1 (.inr (hne _ rfl))
    rw [releaseChange, (recounted_release ..).pose]
    exact ⟨h1, h2.trans hr.2⟩
  · obtain ⟨h1, h2⟩ := idle_moveCursor (c := (s.advance p.cursor).1) hr.1 (.inr (hne _ (advance_serial s p.cursor)))
    exact ⟨h1, h2.trans hr.2⟩

/-- The states with a window. -/
def SeqState.weaves (q : SeqState) : Prop := q = .running ∨ q = .stopping

theorem Pose.Sound.idle_of_weaves {p : Pose} (h : p.Sound) (hw : p.state.weaves) : p.Idle := by
  refine h.idle (fun hx => ?_) (fun hx => ?_) <;> rcases hw with hw | hw <;> cases hw.symm.trans hx

theorem sound_commitNotices (hits : List (Fin 4)) (b : Bool) {s : State} (h : s.pose.Sound) :
    (commitNotices hits b s).pose.Sound := by
  unfold commitNotices
  dsimp only
  refine sound_triggerWhen _ _ ?_
  split <;> split <;> exact h

theorem sound_commit {s : State} (h : s.pose.Sound) (hw : s.seq.state.weaves) : (commit s).pose.Sound := by
  unfold commit
  split
  next p hp =>
    obtain ⟨hi, hs⟩ := idle_commitCore hp (h.idle_of_weaves hw)
    have hst : (commitCore p s).pose.state.weaves := by rw [hs]; exact hw
    rw [commitPlan_eq]
    exact sound_commitNotices _ _ (s := { commitCore p s with grd := _ }) (hi.sound (.inr hst))
  · exact h

/-! ### Verdicts -/

theorem sound_failVerdict (n : Half) (v : Verdict) (t : Trigger) {s : State} (h : s.pose.Sound) :
    (failVerdict n v t s).pose.Sound :=
  sound_accountFailure _ (sound_trigger t (s := closeWindow n v s) h)

theorem sound_commitVerdict (n : Half) {s : State} (h : s.pose.Sound) (hw : s.seq.state.weaves) :
    (commitVerdict n s).pose.Sound := by
  have e := pose_accountCommit s.pendingFeeder (closeWindow n .commit s)
  refine sound_commit (by rw [e]; exact h) ?_
  rw [show (accountCommit s.pendingFeeder (closeWindow n .commit s)).seq.state = s.seq.state from congrArg Pose.state e]
  exact hw

theorem sound_verdictAtClose (n : Half) {s : State} (h : s.pose.Sound) (hw : s.seq.state.weaves) :
    (verdictAtClose n s).pose.Sound := by
  unfold verdictAtClose
  split
  · exact sound_failVerdict _ _ _ h
  · split
    · exact sound_failVerdict _ _ _ h
    · exact sound_commitVerdict n h hw

theorem sound_verdictAtRest (n : Half) {s : State} (h : s.pose.Sound) (hw : s.seq.state.weaves) :
    (verdictAtRest n s).pose.Sound := by
  unfold verdictAtRest
  split
  · exact sound_failVerdict _ _ _ h
  · split
    · exact h
    · exact sound_commitVerdict n h hw

/-! ### Finding -/

theorem pose_unwinding (e : HistEntry) (s : State) : (s.unwinding e).pose = s.pose := by
  obtain ⟨hh, hx, -, hw⟩ := unwinding_hooks e s
  have hq : (s.unwinding e).seq = { s.seq with woven := s.seq.woven - 1 } := by
    show { (unwindChanges e s).seq with woven := (unwindChanges e s).seq.woven - 1 } = _
    rw [unwindChanges_seq]
  unfold State.pose
  rw [hq, hh, hx, isReady_of_feeders (w := s.wft) (by rw [hw, restore_feeders])]

theorem pose_unwind (e : HistEntry) (s : State) : (unwind e s).pose =
    { (moveCursor e.cursor (s.unwinding e)).pose with
      past := (moveCursor e.cursor (s.unwinding e)).pose.past.dropLast } := by
  rw [unwind_eq, (recounted_releaseEntry ..).pose]
  refine congrArg (fun l => { (moveCursor e.cursor (s.unwinding e)).pose with past := l }) ?_
  exact List.map_dropLast

/-- R135: the cursor goes back to the newest entry, away from the latched pick. -/
theorem unwind_orderable {e : HistEntry} {s : State} (h : s.pose.Idle) (hf : s.seq.state = .finding)
    (ht : s.pose.taking = false) (hn : s.pose.latchedNew) (he : s.seq.history.getLast? = some e) :
    (unwind e s).pose.Idle ∧ (unwind e s).pose.orderable := by
  have hp := pose_unwinding e s
  have hmem : e.cursor ∈ s.pose.past := List.mem_map_of_mem (List.mem_of_getLast? he)
  have hne : s.pose.released = true ∨ s.pose.latched ≠ some e.cursor := by
    by_cases hl : s.pose.latched = some e.cursor
    · exact (hn _ hl).imp id fun hx => absurd hmem hx
    · exact .inr hl
  obtain ⟨hi, -⟩ := idle_moveCursor (s := s.unwinding e) (by rw [hp]; exact h) (by rw [hp]; exact hne)
  have hm : (moveCursor e.cursor (s.unwinding e)).pose.cursor = some e.cursor ∧
      (moveCursor e.cursor (s.unwinding e)).pose.past = s.pose.past ∧
      (moveCursor e.cursor (s.unwinding e)).pose.state = s.pose.state ∧
      (moveCursor e.cursor (s.unwinding e)).pose.latched = s.pose.latched ∧
      (moveCursor e.cursor (s.unwinding e)).pose.released = s.pose.released ∧
      (moveCursor e.cursor (s.unwinding e)).pose.taking = s.pose.taking := by
    rw [pose_moveCursor, hp]
    split
    · exact ⟨rfl, rfl, rfl, rfl, rfl, rfl⟩
    · unfold Pose.discarded
      split <;> exact ⟨rfl, rfl, rfl, rfl, rfl, rfl⟩
  obtain ⟨hc, hpast, hst, hlat, hrel, htak⟩ := hm
  rw [pose_unwind]
  refine ⟨hi.setPast _, .inr ⟨hst.trans hf, fun c hl => ?_, fun hx => ?_, htak.trans ht⟩⟩
  · refine (hn c (hlat.symm.trans hl)).imp (fun hx => hrel.trans hx) fun hx hd => hx ?_
    rw [← hpast]
    exact (List.dropLast_sublist _).mem hd
  · cases hc.symm.trans hx

theorem sound_findStep {s : State} (h : s.pose.Sound) (hf : s.seq.state = .finding) (hg : s.guardSound) :
    (findStep s).pose.Sound := by
  cases ht : s.hcc.isTaking with
  | true =>
    unfold findStep
    cases hx : s.hcc.transfer <;> simp [Hcc.isTaking, hx] at ht
    exact h
  | false =>
    have hw : s.pose.waiting = false := Bool.eq_false_iff.2 fun hw => by cases (h.waiting hw).1.symm.trans hf
    have hi := idle_endPresent h.toSettled hw
    have hq : (endPresent s).seq = { s.seq with present := none } := endPresent_seq s
    have hlat : (endPresent s).pose.latched = s.pose.latched ∧ (endPresent s).pose.released = s.pose.released ∧
        (endPresent s).pose.past = s.pose.past := by
      rcases pose_endPresent s with ⟨e, -⟩ | e <;> rw [e]
      · exact ⟨rfl, rfl, rfl⟩
      · unfold Pose.discarded
        split <;> exact ⟨rfl, rfl, rfl⟩
    obtain ⟨hl, hr, hpast⟩ := hlat
    have hn : (endPresent s).pose.latchedNew := fun c hc => by
      rw [hr, hpast]
      exact (h.finding hf).1 c (hl.symm.trans hc)
    have hfe : (endPresent s).seq.state = .finding := by rw [hq]; exact hf
    rw [findStep_of_not_taking ht]
    cases he : s.seq.history.getLast? with
    | none =>
      have hen : (endPresent s).grd.isEnabled .historyEnd = true := by
        unfold Grd.isEnabled
        rw [(kept_endPresent s).enabled]
        exact hg.1 .historyEnd rfl
      rw [Option.elim_none, trigger_enters (.inr (.inr (.inr (.inr hfe)))) hen]
      exact sound_guardEntry (s := countTrigger .historyEnd (endPresent s)) _ hi.toSettled
    | some e =>
      obtain ⟨h1, h2⟩ := unwind_orderable hi hfe ((endPresent_isTaking s).trans ht) hn (e := e) (by rw [hq]; exact he)
      exact sound_orderPresent h1 h2

theorem Pose.Sound.idle_of_finding {p : Pose} (h : p.Sound) (hf : p.state = .finding) (hp : p.present = none) : p.Idle :=
  ⟨h.toSettled, hp, Bool.eq_false_iff.2 fun hw => by cases (h.waiting hw).1.symm.trans hf⟩

theorem sound_findExitCheck {s : State} (h : s.pose.Sound) : (findExitCheck s).pose.Sound := by
  unfold findExitCheck
  split
  next hc =>
    obtain ⟨hf, -, -, hp, -⟩ := hc
    have hp := (present_pose s).2 hp
    obtain ⟨hl, ht⟩ := (h.finding hf).2 hp
    exact sound_enterReady (h.idle_of_finding hf hp) hl ht
  · exact h

/-! ### Rest -/

theorem sound_leaveStopping {s : State} (h : s.pose.Sound) : (leaveStopping s).pose.Sound := by
  unfold leaveStopping
  split
  next hst =>
    have hi := h.idle_of_weaves (.inr hst)
    split
    next hb => exact sound_enterReady_of_belongs hi hb.1
    · exact sound_enterPresenting hi
  · exact h

theorem sound_restStopping {s : State} (h : s.pose.Sound) (hst : s.seq.state = .stopping) : (restStopping s).pose.Sound := by
  rw [restStopping_eq]
  split
  · exact sound_leaveStopping (sound_verdictAtRest _ h (.inr hst))
  · exact sound_leaveStopping h

theorem sound_restHandling (b : Bool) {s : State} (h : s.pose.Sound) : (restHandling b s).pose.Sound := by
  unfold restHandling
  dsimp only
  split
  next hst => exact sound_restStopping (s := { s with seq := { s.seq with runDown := false } }) h hst
  · exact sound_findExitCheck (s := { s with seq := { s.seq with runDown := false } }) h
  · split
    · exact sound_exitCheck (s := { s with seq := { s.seq with runDown := false, coasting := false } }) h
    · exact h
  · split
    · exact h
    · exact h
  all_goals exact h

/-! ### Schedule events -/

/-- R109: the TAKE of a scheduled transfer. -/
theorem Pose.Idle.take {p : Pose} (h : p.Idle) (hr : p.state = .running) (hc : p.stagedCurrent)
    (hs : ∃ c, p.staged = .complete c) : { p with taking := true }.Sound := by
  refine Pose.Idle.sound ⟨⟨h.filling, fun _ => hs, fun _ => rfl, fun _ _ => hc, h.pendingReady, h.stagedReady⟩, h.present,
    h.waiting⟩ (.inr (.inl hr))

theorem sound_atLatch {s : State} (h : s.pose.Sound) : (atLatch s).pose.Sound := by
  unfold atLatch
  split
  next hr =>
    split
    next hx hb =>
      split
      · exact (h.idle_of_weaves (.inl hr)).take hr (stagedCurrent_of_belongs hb) ((buffer_complete _).2 ⟨_, _, hx⟩)
      · exact sound_trigger _ h
    · exact sound_trigger _ h
  · exact h

theorem sound_atOpen {s : State} (h : s.pose.Sound) : (atOpen s).pose.Sound := by
  unfold atOpen
  split
  · split
    · exact sound_trigger _ (s := { s with wft := { s.wft with window := none } }) h
    · split
      · exact h
      · exact h
  · exact h

theorem sound_atClose {s : State} (h : s.pose.Sound) : (atClose s).pose.Sound := by
  unfold atClose
  split
  · split
    next hw => exact sound_verdictAtClose _ h hw
    · exact h
  · exact h

theorem sound_atPrep {s : State} (h : s.pose.Sound) : (atPrep s).pose.Sound := by
  unfold atPrep
  split
  next hc =>
    obtain ⟨hr, -, -, ht⟩ := hc
    have hi := (h.idle_of_weaves (.inl hr)).discard
    have hd := pose_discardStaging s
    have hst : (discardStaging s).seq.state = .running := by rw [discardStaging_seq]; exact hr
    have hid : (discardStaging s).pose.Idle := by rw [hd]; exact hi
    refine sound_startJob _ (hid.sound (.inr (.inl hst))) ((discardStaging_isTaking s).trans ht) ?_ fun g hg => ?_
    · rw [hst]; decide
    · cases hid.present.symm.trans hg
  · exact h

theorem sound_atXfer {s : State} (h : s.pose.Sound) : (atXfer s).pose.Sound := by
  unfold atXfer
  split
  · split
    · exact sound_startTransfer h
    · exact sound_trigger _ h
  · exact h

theorem sound_scheduleEvent (a : SchedAngle) {s : State} (h : s.pose.Sound) : (scheduleEvent a s).pose.Sound := by
  cases a with
  | latch => exact sound_atLatch h
  | opening => exact sound_atOpen h
  | closing => exact sound_atClose h
  | prep => exact sound_atPrep h
  | xfer => exact sound_atXfer h

/-! ### The actions of an encoder step -/

theorem sound_unsanctioned {s : State} (h : s.pose.Sound) : (unsanctioned s).pose.Sound := by
  have hr : (raise .p .unsanctionedMotion s).pose.Sound := h
  unfold unsanctioned
  dsimp only
  split
  · exact hr
  · exact sound_trigger _ hr

theorem sound_raiseAngleFault {s : State} (h : s.pose.Sound) : (raiseAngleFault s).pose.Sound :=
  sound_trigger _ (s := { s with ang := { s.ang with faultTotal := _ } }) h

theorem sound_indexCrossing (d : Dir) {s : State} (h : s.pose.Sound) (hg : s.guardSound) : (indexCrossing d s).pose.Sound := by
  unfold indexCrossing
  split <;> split
  · exact sound_unsanctioned h
  · exact h
  next hf => exact sound_findStep h hf hg
  · exact h

theorem sound_takeAction (x : ShaftAction) {s : State} (h : s.pose.Sound) (hg : s.guardSound) : (x.take s).pose.Sound := by
  cases x with
  | angleFault => exact sound_raiseAngleFault h
  | fire a => exact sound_scheduleEvent a (s := { s with ang := { s.ang with armed := _ } }) h
  | place n i l => exact h
  | crossing d => exact sound_indexCrossing d h hg
  | motionStarted =>
    show (judgeMotion s).pose.Sound
    unfold judgeMotion
    split
    · exact sound_unsanctioned h
    · exact h
  | reverseTravel =>
    show (judgeReverse s).pose.Sound
    unfold judgeReverse
    split
    · exact sound_unsanctioned h
    · exact h

theorem steady_guardSound : Steady State.guardSound := commanded_guardSound.toGoverned.toSteady

theorem sound_takeActions (l : List ShaftAction) : ∀ {s : State}, s.pose.Sound → s.guardSound →
    (l.foldl (fun s x => x.take s) s).pose.Sound := by
  induction l with
  | nil => exact fun h _ => h
  | cons x l ih =>
    intro s h hg
    refine ih (sound_takeAction x h hg) ?_
    cases hx : x.isPlace with
    | false => exact steady_guardSound.takeAction hx hg
    | true =>
      cases x <;> cases hx
      exact hg

/-! ### The end of a TAKE -/

/-- What a TAKE that ends leaves: the buffer is empty, and the latched pick is the one that was staged, or none. -/
structure Pose.Lands (p q : Pose) : Prop extends Settled q where
  state : q.state = p.state
  cursor : q.cursor = p.cursor
  past : q.past = p.past
  present : q.present = p.present
  waiting : q.waiting = p.waiting
  job : q.job = false
  staged : q.staged = .empty
  latched : q.latched = none ∨ p.released = false ∧ q.latched = p.staged.cursor
  taking : q.taking = false

namespace Pose.Lands
variable {p q : Pose} (h : p.Lands q) (hs : p.Sound) (ht : p.taking = true)
include h

theorem takenCurrent : q.takenCurrent := fun hx => by cases h.taking.symm.trans hx

theorem latchedCurrent (hc : p.released = true ∨ p.stagedCurrent) : q.latchedCurrent := fun c hl => by
  rcases h.latched with hn | ⟨hr, he⟩
  · cases hn.symm.trans hl
  · rcases hc with hx | hx
    · cases hx.symm.trans hr
    · exact .inr (h.cursor.trans (hx c (he.symm.trans hl)))

theorem latchedNew (hc : p.released = true ∨ p.stagedCurrent) (hn : ∀ c, p.cursor = some c → c ∉ p.past) :
    q.latchedNew := fun c hl =>
  (h.latchedCurrent hc c hl).imp id fun hx => by rw [h.past]; exact hn c (h.cursor.symm.trans hx)

include hs ht

/-- Without a PRESENT job the end of a TAKE is sound by itself. -/
theorem sound (hp : p.present = none) (hn : ∀ c, p.cursor = some c → c ∉ p.past) : q.Sound := by
  refine ⟨h.toSettled, fun hw => ?_, fun hx => absurd (h.present.trans hp) hx, fun g hg => ?_, fun _ _ => ⟨h.job, h.staged⟩,
    fun hu => ⟨fun hl => ?_, fun hx => by cases h.taking.symm.trans hx⟩, fun hr => ?_, fun hf => ?_⟩
  · rw [h.state, h.present]
    exact hs.waiting (h.waiting.symm.trans hw)
  · cases (h.present.trans hp).symm.trans hg
  · rcases h.latched with he | ⟨hr, -⟩
    · exact absurd he hl
    · cases ((hs.unloaded (h.state.symm.trans hu)).2 ht).symm.trans hr
  · exact ⟨h.latchedCurrent ((hs.steady (h.state.symm.trans hr)).2 ht), h.takenCurrent⟩
  · have hc := ((hs.finding (h.state.symm.trans hf)).2 hp).2 ht
    exact ⟨h.latchedNew hc hn, fun _ => ⟨h.latchedCurrent hc, h.takenCurrent⟩⟩

end Pose.Lands

theorem Pose.Lands.drop {p q : Pose} (h : p.Lands q) : p.Lands q.dropped :=
  ⟨h.toSettled.drop, h.state, h.cursor, h.past, h.present, h.waiting, h.job, h.staged, .inl rfl, h.taking⟩

/-- R110, R143: the end of the TAKE that RESET-SEQUENCER met. -/
theorem lands_closeReleased (s : State) : s.pose.Lands (closeReleased s).pose := by
  have hf : ∀ {q : Prop}, false = true → q := nofun
  exact ⟨⟨hf, hf, hf, fun hx => hf hx, fun hx => absurd rfl hx.2.1, nofun⟩, rfl, rfl, rfl, rfl, rfl, rfl, rfl, .inl rfl, rfl⟩

/-- R109: the staged pick latched. -/
theorem lands_latched {p : Plan} {image : List Bool} (f : Fst) {s : State} (h : s.pose.Sound)
    (hx : s.xpe.staging = .complete p image) (hr : s.hcc.holdsReleased = false) :
    s.pose.Lands (latched p image f s).pose := by
  have hj : s.pose.job = false := Bool.eq_false_iff.2 fun hj => by
    obtain ⟨q, hq⟩ := (buffer_filling s.xpe.staging).1 (h.filling hj)
    cases hx.symm.trans hq
  have hready : ∀ i, p.feeder = some i → s.pose.ready i = true := fun i hi =>
    (ready_pose s i).2 (serves_staged h p (by rw [hx]; rfl) i hi)
  have hcur : s.pose.staged.cursor = some p.cursor := by
    show s.xpe.staging.buffer.cursor = _
    rw [hx]
    rfl
  refine ⟨⟨fun hx => ?_, nofun, fun hx => ?_, nofun, fun _ => hready, nofun⟩, rfl, rfl, rfl, rfl, rfl, hj, rfl,
    .inr ⟨hr, hcur.symm⟩, rfl⟩
  · cases hj.symm.trans hx
  · cases hr.symm.trans hx

theorem lands_landed {s : State} (h : s.pose.Sound) (ht : s.pose.taking = true) : s.pose.Lands (landed s).pose := by
  cases hr : s.hcc.holdsReleased with
  | true => rw [landed_released hr]; exact lands_closeReleased s
  | false =>
    obtain ⟨p, image, hx⟩ := (buffer_complete s.xpe.staging).1 (h.complete ht)
    have hl := lands_latched (latchedFst p s) h hx hr
    rw [landed, if_neg (by rw [hr]; exact Bool.false_ne_true), latchStaged_eq hx, takeHeldDrop]
    split
    · rw [pose_dropAll (by rfl)]
      exact hl.drop
    · exact hl

/-- R126: a PRESENT job that was TAKING is complete; the latched pick is the cursor pick. -/
theorem sound_finishPresent {s : State} (h : s.pose.Sound) (ht : s.pose.taking = true)
    (hn : ∀ c, s.pose.cursor = some c → c ∉ s.pose.past) : (finishPresent (landed s)).pose.Sound := by
  have L := lands_landed h ht
  cases hp : s.seq.present with
  | none =>
    have hpl : (landed s).seq.present = none := (present_pose _).1 (L.present.trans ((present_pose s).2 hp))
    rw [finishPresent_of_ne fun j hj => by cases hpl.symm.trans hj]
    exact L.sound h ht ((present_pose s).2 hp) hn
  | some j =>
    have hps : s.pose.present = some j.stage := congrArg (Option.map PresentJob.stage) hp
    obtain ⟨hc, hst, -⟩ := h.stage _ hps
    have hlp : (landed s).seq.present.map (·.stage) = some j.stage := L.present.trans hps
    obtain ⟨k, hk, hkj⟩ := Option.map_eq_some_iff.1 hlp
    have hw : (landed s).pose.waiting = false := Bool.eq_false_iff.2 fun hw => by
      cases (h.waiting (L.waiting.symm.trans hw)).2.symm.trans hps
    have hi : { landed s with seq := { (landed s).seq with present := none } }.pose.Idle :=
      ⟨L.toSettled.setState _ none _, rfl, hw⟩
    rw [finishPresent_taking hk (hkj.trans (hst.2 ht))]
    split
    · exact sound_enterReady (s := raise .p .presentDone { landed s with seq := { (landed s).seq with present := none } }) hi
        (L.latchedCurrent (.inr hc)) L.takenCurrent
    next hpr =>
      have hfin : (landed s).pose.state = .finding := by
        refine (h.present (by rw [hps]; nofun)).elim (fun hx => absurd (L.state.trans hx) hpr) fun hx => L.state.trans hx
      exact sound_findExitCheck (s := raise .p .presentDone { landed s with seq := { (landed s).seq with present := none } })
        (hi.onLatched (.inr ⟨hfin, L.latchedNew (.inr hc) hn⟩) (L.latchedCurrent (.inr hc)) L.takenCurrent)

theorem sound_takeFindSteps (n : Nat) : ∀ {s : State}, s.pose.Sound → s.guardSound → (takeFindSteps n s).pose.Sound := by
  induction n with
  | zero => exact fun h _ => h
  | succ n ih =>
    intro s h hg
    unfold takeFindSteps
    split
    next hc =>
      exact ih (sound_findStep (s := { s with seq := { s.seq with findWaiting := s.seq.findWaiting - 1 } }) h hc.1 hg)
        (steady_guardSound.findStep (s := { s with seq := { s.seq with findWaiting := s.seq.findWaiting - 1 } }) hg)
    · exact h

theorem sound_takePresentOrder {s : State} (h : s.pose.Sound) : (takePresentOrder s).pose.Sound := by
  unfold takePresentOrder
  split
  next hw =>
    obtain ⟨hq, hp⟩ := h.waiting hw
    exact sound_orderPresent (s := { s with seq := { s.seq with presentWaiting := false } })
      ⟨h.toSettled.setState _ _ false, hp, rfl⟩ (.inl hq)
  · exact h

theorem sound_takeEnds {s : State} (h : s.pose.Sound) (ht : s.pose.taking = true) (hg : s.guardSound)
    (hn : ∀ c, s.pose.cursor = some c → c ∉ s.pose.past) : (takeEnds s).pose.Sound := by
  have hl : (landed s).guardSound := by
    unfold landed
    split
    next hr => exact steady_guardSound.closeReleased hg hr
    next hr => exact steady_guardSound.takeHeldDrop (steady_guardSound.latchStaged (Bool.eq_false_iff.2 hr) hg)
  rw [takeEnds_eq]
  exact sound_takePresentOrder (sound_takeFindSteps _ (sound_finishPresent h ht hn) (steady_guardSound.finishPresent hl))

end Sys2Proof.Machine
end

section
/-! PROOFS. What the requests and the other commands make of a pose, and with it R84 for every step. -/

namespace Sys2Proof.Machine

/-! ### The serials of the history -/

/-- In a run of consecutive serials that ends below `k` every serial lies below `k` by at most the length of the run. -/
theorem exists_add_of_chain (l : List Half) : ∀ {k : Half}, Runs l →
    (∀ m, l.getLast? = some m → k = m + 1) → ∀ x ∈ l, ∃ j, 1 ≤ j ∧ j ≤ l.length ∧ x + BitVec.ofNat 16 j = k := by
  match l with
  | [] => exact nofun
  | [a] =>
    intro k _ hl x hx
    obtain rfl := List.mem_singleton.1 hx
    exact ⟨1, Nat.le_refl 1, Nat.le_refl 1, (hl x rfl).symm⟩
  | a :: b :: l =>
    intro k hr hl x hx
    obtain ⟨hab, hr⟩ := hr
    have ih := exists_add_of_chain (b :: l) hr (fun m hm => hl m (List.getLast?_cons_cons.trans hm))
    rw [List.length_cons]
    rcases List.mem_cons.1 hx with rfl | hx
    · obtain ⟨j, h1, h2, h3⟩ := ih b List.mem_cons_self
      refine ⟨j + 1, by omega, by omega, ?_⟩
      rw [← h3, hab, BitVec.ofNat_add, BitVec.add_comm (BitVec.ofNat 16 j), ← BitVec.add_assoc]
      rfl
    · obtain ⟨j, h1, h2, h3⟩ := ih x hx
      exact ⟨j, h1, Nat.le_succ_of_le h2, h3⟩

/-- R55, R129: the cursor pick is none of the history. -/
theorem cursor_notMem_past {s : State} (h : s.programSound) : ∀ c, s.pose.cursor = some c → c ∉ s.pose.past := by
  intro c hc hmem
  have hs : c.serial ∈ s.seq.serials := by
    obtain ⟨e, he, rfl⟩ := List.mem_map.1 hmem
    exact List.mem_map_of_mem he
  obtain ⟨j, h1, h2, h3⟩ := exists_add_of_chain _ h.chain (h.serial c hc).2 _ hs
  have hj : j ≤ 64 := Nat.le_trans h2 h.length
  have h4 := congrArg BitVec.toNat h3
  rw [BitVec.toNat_add, BitVec.toNat_ofNat] at h4
  have hlt := c.serial.isLt
  omega

/-! ### Motion and rest -/

theorem sound_grantForward {s : State} (h : s.pose.Sound) (hr : s.seq.state = .ready) : (grantForward s).pose.Sound :=
  ((h.idle_of_ready hr).setState .running).sound (.inr (.inl rfl))

theorem sound_grantFind {s : State} (h : s.pose.Sound) (hn : ∀ c, s.pose.cursor = some c → c ∉ s.pose.past)
    (hr : s.seq.state = .ready) : (grantFind s).pose.Sound := by
  obtain ⟨hl, ht⟩ := h.steady hr
  exact ((h.idle_of_ready hr).setState .finding).onLatched (.inr ⟨rfl, fun c hc => (hl c hc).imp id (hn c)⟩) hl ht

theorem sound_dropGrant {s : State} (h : s.pose.Sound) : (dropGrant s).pose.Sound := by
  unfold dropGrant
  dsimp only
  split
  next hr => exact ((h.idle_of_weaves (.inl hr)).setState .stopping).sound (.inr (.inr rfl))
  · exact h

theorem sound_stopMotion {s : State} (h : s.pose.Sound) : (stopMotion s).pose.Sound := by
  unfold stopMotion
  dsimp only
  split
  · exact sound_dropGrant h
  · exact sound_restHandling true (sound_dropGrant h)

/-! ### The guard -/

theorem sound_onsets (g : Grd) {s : State} (h : s.pose.Sound) : (onsets g s).pose.Sound := by
  unfold onsets
  dsimp only
  split
  · have hd : { s with draws := s.draws + 1 }.pose.Sound := h
    split
    · exact sound_trigger _ (sound_trigger _ hd)
    · exact sound_trigger _ (sound_trigger _ hd)
  · exact sound_triggerWhen _ _ (sound_triggerWhen _ _ h)

theorem sound_replaceGuard (g : GuardSetting) {s : State} (h : s.pose.Sound) : (replaceGuard g s).pose.Sound := by
  have ho := sound_onsets s.grd (s := { s with grd := s.grd.set g }) h
  unfold replaceGuard
  dsimp only
  split
  · exact sound_exitCheck ho
  · exact ho

theorem sound_clearHalt {s : State} (h : s.pose.Sound) : (clearHalt s).1.pose.Sound := by
  unfold clearHalt
  split
  next hc =>
    exact sound_presentOwed (sound_guardExit (s := { s with grd := { s.grd with count := 0, run := 0 } }) h (.inr hc.1))
  · exact h

/-! ### The hook chain -/

/-- R111: whatever was latched is gone. -/
theorem Pose.Sound.drop {p : Pose} (h : p.Sound) : p.dropped.Sound :=
  ⟨h.toSettled.drop, h.waiting, h.present, h.stage, h.guarded, fun hu => ⟨fun hx => absurd rfl hx, (h.unloaded hu).2⟩,
    fun hr => ⟨nofun, (h.steady hr).2⟩, fun hf => ⟨nofun, fun hp => ⟨nofun, ((h.finding hf).2 hp).2⟩⟩⟩

theorem sound_censusEnds (c : Option Nat) {s : State} (h : s.pose.Sound) : (censusEnds c s).pose.Sound := by
  unfold censusEnds
  dsimp only
  refine sound_exitCheck ?_
  rw [pose_answer]
  show (State.pose (releaseLatched _ _)).Sound
  rw [(recounted_releaseLatched ..).pose]
  exact h.drop

theorem sound_refreshEnds (st : List EchoStatus) {s : State} (h : s.pose.Sound) (ht : s.pose.taking = false) :
    (refreshEnds st s).pose.Sound := by
  have e : (updateStatuses st s).pose = s.pose := pose_updateStatuses st s
  unfold refreshEnds
  dsimp only
  generalize updateStatuses st s = u at e ⊢
  have hut : u.hcc.isTaking = false := (congrArg Pose.taking e).trans ht
  have hu : { u with hcc := { u.hcc with transfer := .idle, refreshClear := [] } }.pose = u.pose :=
    pose_congr (s := u) rfl rfl rfl hut.symm rfl rfl
  have hv : (answerModules (b8 0) s.hcc.refreshClear
      { u with hcc := { u.hcc with transfer := .idle, refreshClear := [] } }).pose.Sound := by
    rw [pose_answerModules, hu, e]
    exact h
  generalize answerModules _ _ _ = v at hv ⊢
  have hw := sound_triggerWhen v.hcc.faultLevel .moduleFault (s := reportLevel v) hv
  split
  · exact sound_exitCheck hw
  · exact hw

theorem sound_startRefresh (c : List Nat) {s : State} (h : s.pose.Sound) (ht : s.hcc.transfer = .idle) :
    (startRefresh c s).pose.Sound := by
  have hs : s.hcc.isTaking = false := by rw [Hcc.isTaking, ht]
  have hu : { s with hcc := { s.hcc with transfer := .refreshing, refreshClear := c } }.pose = s.pose :=
    pose_congr (s := s) rfl rfl rfl hs.symm rfl rfl
  unfold startRefresh
  dsimp only
  split
  · exact sound_refreshEnds _ (by rw [hu]; exact h) rfl
  · rw [hu]; exact h

theorem sound_beginRefresh (c : List Nat) {s : State} (h : s.pose.Sound) : (beginRefresh c s).1.pose.Sound := by
  unfold beginRefresh
  split
  · split
    next hr =>
      rw [State.refreshable, Bool.and_eq_true] at hr
      exact sound_startRefresh c h (of_decide_eq_true hr.2)
    · exact h
  · exact h

theorem sound_transferEnds (n : Half) (echo : List ModuleEcho) {s : State} (h : s.pose.Sound) (ht : s.pose.taking = false) :
    (transferEnds n echo s).pose.Sound := by
  have hr := sound_transferResults n echo h ht
  unfold transferEnds
  dsimp only
  refine sound_reportTransfer n ?_
  split
  · exact sound_exitCheck hr
  · exact hr

/-! ### The weft unit -/

theorem sound_setGroup (g : Nat) (p q : Option Nat) (m : GroupMode) {s : State} (h : s.pose.Sound) :
    (setGroup g p q m s).1.pose.Sound := by
  unfold setGroup
  split
  · exact h
  · split
    · split
      · exact sound_replanAfresh _ (s := { s with wft := { s.wft with groups := _ } }) h
      · exact h
    · exact h

theorem sound_setFeeder (f : Nat) (c : Service) (k : Option Nat) {s : State} (h : s.pose.Sound) :
    (setFeeder f c k s).1.pose.Sound := by
  have hl : (setLimit k s).pose.Sound := by cases k <;> exact h
  unfold setFeeder
  split
  · exact h
  · split
    · cases c with
      | into => exact sound_changeFeeder _ _ hl
      | out => exact sound_changeFeeder _ _ hl
      | keep => exact hl
    · exact h

theorem sound_restoreFeeder (f : Nat) {s : State} (h : s.pose.Sound) : (restoreFeeder f s).1.pose.Sound := by
  unfold restoreFeeder
  split
  · exact h
  · dsimp only
    split
    · exact sound_changeFeeder _ _ h
    · exact h

theorem sound_feederState (f : Nat) (r : FeederReport) {s : State} (h : s.pose.Sound) : (feederState f r s).1.pose.Sound := by
  unfold feederState
  split
  · exact h
  · exact sound_changeFeeder _ _ h

theorem pose_clearWeft (f t : BitVec 8) (e y : Bool) (s : State) : { s with wft := s.wft.clear f t e y }.pose = s.pose := by
  have hr : (s.wft.clear f t e y).isReady = s.wft.isReady := by
    funext i
    simp only [Wft.isReady, Wft.clear, get_ofFn, Feeder.clear]
  unfold State.pose
  rw [hr]

theorem sound_readWeft (l : LinkId) (f t : BitVec 8) (e y : Bool) {s : State} (h : s.pose.Sound) :
    (readWeft l f t e y s).1.pose.Sound := by
  unfold readWeft
  split
  · exact h
  · show (State.pose { s with wft := s.wft.clear f t e y }).Sound
    rw [pose_clearWeft]
    exact h

theorem pose_suspected (e : HistEntry) (s : State) : (s.suspected e).pose = s.pose := by
  have hpast : (markSuspect e.serial s.seq.history).map (·.cursor) = s.seq.history.map (·.cursor) := by
    rw [markSuspect, List.map_map]
    refine List.map_congr_left fun x _ => ?_
    dsimp only [Function.comp]
    split <;> rfl
  have hr : (s.suspected e).wft.isReady = s.wft.isReady := by
    unfold State.suspected
    cases e.feeder with
    | none => rfl
    | some f => exact isReady_setFeeder Iff.rfl
  have e1 : (s.suspected e).pose = { s.pose with past := (markSuspect e.serial s.seq.history).map (·.cursor)
                                                 ready := (s.suspected e).wft.isReady } := rfl
  rw [e1, hpast, hr]
  rfl

theorem sound_weftReport (n : Half) (o : Insertion) {s : State} (h : s.pose.Sound) : (weftReport n o s).1.pose.Sound := by
  unfold weftReport
  split
  · have hr : (s.wft.record n o).feeders = s.wft.feeders := by unfold Wft.record; split <;> rfl
    show (State.pose { s with wft := s.wft.record n o }).Sound
    rw [pose_congr (s := s) (t := { s with wft := s.wft.record n o }) rfl rfl rfl rfl rfl hr]
    exact h
  · split
    · exact h
    next e _ =>
      split
      · show (lateFailure e s).pose.Sound
        rw [lateFailure_eq]
        exact sound_trigger _ (by rw [pose_suspected]; exact h)
      · exact h

/-! ### Map writes -/

theorem sound_mapWritten {s : State} (h : s.pose.Sound) : (mapWritten s).pose.Sound := by
  unfold mapWritten
  split
  next hr => exact sound_represent (s := { s with seq := { s.seq with representOwed := _ } }) (h.idle_of_ready hr)
  · exact h

theorem sound_defineWeave (e w n : Nat) (l : List Bool) {s : State} (h : s.pose.Sound) :
    (defineWeave e w n l s).1.pose.Sound := by
  unfold defineWeave
  split
  · exact h
  next i _ =>
    have hw : { s with wlb := upd s.wlb i ⟨w, n, l⟩ }.pose.Sound := h
    dsimp only
    split
    · exact h
    · split
      · exact h
      · split
        · simp only [accept]
          split
          · exact sound_mapWritten hw
          · exact hw
        · exact h

theorem sound_setSection (n : Nat) (r : Option SectionRecord) {s : State} (h : s.pose.Sound) :
    (setSection n r s).1.pose.Sound := by
  unfold setSection
  split
  · exact h
  · split
    · split
      · exact sound_mapWritten (s := { s with hmp := { s.hmp with sections := _ } }) h
      · exact h
    · exact h

theorem sound_setDead (l : List Nat) {s : State} (h : s.pose.Sound) : (setDead l s).pose.Sound :=
  sound_mapWritten (s := { s with hmp := { s.hmp with dead := l } }) h

theorem sound_setDeadList (l : List Nat) {s : State} (h : s.pose.Sound) : (setDeadList l s).1.pose.Sound := by
  unfold setDeadList
  split
  · split
    · exact sound_setDead l h
    · exact h
  · exact h

theorem sound_addDeadHook (x : Nat) {s : State} (h : s.pose.Sound) : (addDeadHook x s).1.pose.Sound := by
  unfold addDeadHook
  split
  · exact h
  · split
    · split
      · exact sound_setDead _ h
      · split
        · exact sound_setDead _ h
        · exact h
    · exact h

theorem sound_removeDeadHook (x : Nat) {s : State} (h : s.pose.Sound) : (removeDeadHook x s).1.pose.Sound := by
  unfold removeDeadHook
  split
  · exact h
  · split
    · exact sound_setDead _ h
    · exact h

/-! ### Selection and reset -/

theorem sound_selectCursor (c : Cursor) {s : State} (h : s.pose.Sound) (ho : s.openToSettings) :
    (selectCursor c s).pose.Sound := by
  have hi : s.pose.Idle := by
    refine h.idle (fun hx => ?_) (fun hx => ?_) <;> rcases ho with ho | ⟨ho, -⟩ <;> cases ho.symm.trans hx
  have hp : (placeCursor .presenting c s).pose = { s.pose with cursor := some c, state := .presenting } :=
    (recounted_placeCursor ..).pose
  rw [selectCursor_eq, pose_departed]
  split
  next hc =>
    refine sound_orderPresent ?_ (by rw [hp]; exact .inl rfl)
    rw [hp, ← hc]
    exact hi.setState .presenting
  next hc =>
    have hn : s.pose.released = true ∨ s.pose.latched ≠ some c := by
      by_cases hl : s.pose.latched = some c
      · rcases ho with ho | ⟨ho, -⟩
        · exact .inl ((h.unloaded ho).1 (by rw [hl]; nofun))
        · exact ((h.steady ho).1 c hl).imp id fun hx => absurd hx hc
      · exact .inr hl
    have hm : (placeCursor .presenting c s).pose.Idle := by
      rw [hp]
      exact (hi.moveTo (l := s.pose.past) hn).setState .presenting
    refine sound_orderPresent (by rw [pose_discardStaging]; exact hm.discard) (.inl ?_)
    show (discardStaging (placeCursor .presenting c s)).seq.state = .presenting
    rw [discardStaging_seq]
    exact congrArg Pose.state hp

theorem sound_selectDesign (i c : Nat) {s : State} (h : s.pose.Sound) : (selectDesign i c s).1.pose.Sound := by
  unfold selectDesign
  split
  · exact h
  · split
    next hw =>
      split
      · split
        · exact sound_selectCursor _ h (writable_iff.1 hw)
        · exact h
      · exact h
    · exact h

/-- R143: SEQ set back. -/
theorem Pose.Settled.setBack {p : Pose} (h : p.Settled) (hl : p.latched ≠ none → p.released = true)
    (ht : p.taking = true → p.released = true) :
    { p with state := .unloaded, cursor := none, past := [], present := none, waiting := false }.Sound := by
  have hp : ¬{ p with state := .unloaded, cursor := none, past := [], present := none, waiting := false }.pending :=
    fun ⟨_, h1, h2⟩ => h1 h2
  exact ⟨⟨h.filling, h.complete, h.released, fun _ hx => absurd hx hp, fun hx => absurd hx hp, h.stagedReady⟩, nofun,
    fun hx => absurd rfl hx, nofun, (by rintro (hx | hx) <;> cases hx), fun _ => ⟨hl, ht⟩, nofun, nofun⟩

theorem isReady_weaveReset (w : Wft) : w.weaveReset.isReady = w.isReady := by
  funext f
  simp [Wft.isReady, Wft.weaveReset, get_eq]

theorem pose_unwoven (s : State) : (unwoven s).pose =
    if s.pose.taking then { s.pose with released := true } else s.pose.discarded.dropped := by
  have hr : (releaseProgram s).pose = s.pose := (recounted_releaseProgram s).pose
  cases ht : s.hcc.isTaking with
  | true =>
    obtain ⟨hx, hh⟩ := unwoven_held ht
    have hq : (unwoven s).seq = s.seq ∧ (unwoven s).wft = s.wft := by
      rw [unwoven_taking ht]
      exact ⟨(releaseTaken_seq _).trans (recounted_releaseProgram s).seq_eq,
        (releaseTaken_wft _).trans (recounted_releaseProgram s).wft_eq⟩
    have ht' : s.pose.taking = true := ht
    rw [ht', State.pose, hq.1, hq.2, hx, hh]
    rfl
  | false =>
    have ht' : s.pose.taking = false := ht
    have hd : (discardStaging (releaseProgram s)).hcc.isTaking = false := by
      rw [discardStaging_isTaking, releaseProgram_isTaking, ht]
    rw [unwoven_not_taking ht, pose_dropAll hd, pose_discardStaging, hr, ht']
    rfl

theorem sound_resetWeaving {s : State} (h : s.pose.Sound) : (resetWeaving s).pose.Sound := by
  have hu : (unwoven s).pose.Settled ∧ ((unwoven s).pose.latched ≠ none → (unwoven s).pose.released = true) ∧
      ((unwoven s).pose.taking = true → (unwoven s).pose.released = true) := by
    rw [pose_unwoven]
    cases ht : s.pose.taking with
    | true =>
      exact ⟨⟨h.filling, h.complete, fun _ => ht, fun _ hp => (by cases hp.1), fun hp => (by cases hp.1), h.stagedReady⟩,
        fun _ => rfl, fun _ => rfl⟩
    | false =>
      have hd := h.toSettled.discard.drop
      rw [Pose.discarded_of_not_taking ht] at hd ⊢
      exact ⟨hd, fun hx => absurd rfl hx, fun hx => by cases ht.symm.trans hx⟩
  have e : (resetWeaving s).pose = { (unwoven s).pose with
      state := .unloaded, cursor := none, past := [], present := none, waiting := false } := by
    rw [resetWeaving_eq, pose_departed]
    exact congrArg (fun r => { (unwoven s).pose with
      state := .unloaded, cursor := none, past := [], present := none, waiting := false, ready := r }) (isReady_weaveReset _)
  rw [e]
  exact hu.1.setBack hu.2.1 hu.2.2

end Sys2Proof.Machine
end

section
/-! PROOFS. R84 for every command: the pose stays sound, with the serials of the history and the settings of the guard that it
rests on. -/

namespace Sys2Proof.Machine

/-! ### The requests -/

/-- A sound pose, with what the find steps and the end of a TAKE rest on. -/
structure State.Poised (s : State) : Prop where
  sound : s.pose.Sound
  program : s.programSound
  guard : s.guardSound

theorem State.Poised.fresh {s : State} (h : s.Poised) : ∀ c, s.pose.cursor = some c → c ∉ s.pose.past :=
  cursor_notMem_past h.program

theorem motionRefusal_of_forward {s : State} (h : s.forwardRefusal = none) : s.motionRefusal = none := by
  unfold State.forwardRefusal at h
  split at h
  · cases h
  · assumption

theorem sound_motionForward {s : State} (h : s.pose.Sound) : (motionForward s).1.pose.Sound := by
  unfold motionForward
  split
  · exact h
  next hr => exact sound_grantForward h (ready_of_motionRefusal (motionRefusal_of_forward hr))

theorem sound_motionFind {s : State} (h : s.Poised) : (motionFind s).1.pose.Sound := by
  unfold motionFind
  split
  · exact h.sound
  next hr => exact sound_grantFind h.sound h.fresh (ready_of_motionRefusal hr)

theorem sound_motionPosition {s : State} (h : s.pose.Sound) : (motionPosition s).1.pose.Sound := by
  unfold motionPosition
  split <;> exact h

theorem sound_setSchedule (c : Schedule) {s : State} (h : s.pose.Sound) : (setSchedule c s).1.pose.Sound := by
  unfold setSchedule
  split
  · split <;> exact h
  · exact h

theorem sound_emptyQueue {s : State} (h : s.pose.Sound) : (emptyQueue s).pose.Sound := by
  have e : (emptyQueue s).pose = s.pose := (recounted_releaseChanges s.chu.queue s).pose
  rw [e]
  exact h

theorem sound_queueChange (i c : Nat) (k : Condition) (f : Bool) {s : State} (h : s.pose.Sound) :
    (queueChange i c k f s).1.pose.Sound := by
  unfold queueChange
  split
  · exact h
  · split
    · exact h
    · split
      · exact h
      · split
        · split
          · exact h
          · split <;> exact h
        · exact h

theorem sound_setMark (k : Nat) (m : CompMode) (v w : BitVec 8) (n p : Bool) {s : State} (h : s.pose.Sound) :
    (setMark k m v w n p s).1.pose.Sound := by
  unfold setMark
  split
  · exact h
  · split
    · split <;> exact h
    · exact h

theorem sound_defineDesign (i w n : Nat) (m : Vector Nat 16) {s : State} (h : s.pose.Sound) :
    (defineDesign i w n m s).1.pose.Sound := by
  refine Governed.withSlot (P := fun s => s.pose.Sound) i (fun i => ?_) h
  split
  · exact h
  · split
    · exact h
    · split <;> exact h

theorem sound_writeFigure (i c j : Nat) (v : List (BitVec 4)) {s : State} (h : s.pose.Sound) :
    (writeFigure i c j v s).1.pose.Sound := by
  refine Governed.withSlot (P := fun s => s.pose.Sound) i (fun i => ?_) h
  split
  · split <;> exact h
  · exact h

theorem sound_writeCards (i c : Nat) (r : List CardRecord) {s : State} (h : s.pose.Sound) :
    (writeCards i c r s).1.pose.Sound := by
  refine Governed.withSlot (P := fun s => s.pose.Sound) i (fun i => ?_) h
  split
  · split <;> exact h
  · exact h

theorem sound_commitDesign (i : Nat) {s : State} (h : s.pose.Sound) : (commitDesign i s).1.pose.Sound := by
  refine Governed.withSlot (P := fun s => s.pose.Sound) i (fun i => ?_) h
  split <;> exact h

theorem sound_reopenDesign (i : Nat) {s : State} (h : s.pose.Sound) : (reopenDesign i s).1.pose.Sound := by
  refine Governed.withSlot (P := fun s => s.pose.Sound) i (fun i => ?_) h
  split
  · exact h
  · split <;> exact h

theorem sound_eraseDesign (i : Nat) {s : State} (h : s.pose.Sound) : (eraseDesign i s).1.pose.Sound := by
  refine Governed.withSlot (P := fun s => s.pose.Sound) i (fun i => ?_) h
  split
  · exact h
  · exact h
  · split <;> exact h

theorem sound_readNotices (l : LinkId) (c : List NoticeKind) (e o : Bool) {s : State} (h : s.pose.Sound) :
    (readNotices l c e (overlapFirst o l s)).1.pose.Sound := by
  have ho : (overlapFirst o l s).pose = s.pose := by
    unfold overlapFirst
    split
    · exact pose_modLink ..
    · rfl
  unfold readNotices
  split
  · show (State.pose (State.modLink _ _ _)).Sound
    rw [pose_modLink, ho]; exact h
  · show (overlapFirst o l s).pose.Sound
    rw [ho]; exact h

theorem sound_setNoticeMask (l : LinkId) (m : List NoticeKind) {s : State} (h : s.pose.Sound) :
    (setNoticeMask l m s).1.pose.Sound := by
  unfold setNoticeMask
  split
  · show (State.pose (State.modLink _ _ _)).Sound
    rw [pose_modLink]; exact h
  · exact h

/-- The requests of the hook chain that wait for the bus. -/
theorem sound_census {s : State} (h : s.pose.Sound) : (census s).1.pose.Sound := by unfold census; split <;> exact h

theorem sound_hookTest {s : State} (h : s.pose.Sound) : (hookTest s).1.pose.Sound := by
  unfold hookTest
  split
  · split <;> exact h
  · exact h

theorem sound_echoErrors (v : Vector Nat 96) {s : State} (h : s.pose.Sound) :
    { s with hcc := { s.hcc with echoErrors := v } }.pose.Sound := h

theorem sound_readModules (c : List Nat) {s : State} (h : s.pose.Sound) : (readModules c s).1.pose.Sound := by
  unfold readModules
  split
  · exact sound_echoErrors _ h
  · exact h

theorem sound_setEchoBudget (n : Nat) {s : State} (h : s.pose.Sound) : (setEchoBudget n s).1.pose.Sound := by
  unfold setEchoBudget
  split
  · exact h
  · exact h

theorem sound_setGuard (g : GuardSetting) {s : State} (h : s.pose.Sound) : (setGuard g s).1.pose.Sound := by
  unfold setGuard
  split
  · exact sound_replaceGuard g h
  · exact h

/-- The owner of every request. -/
theorem sound_owner {c : Instr} {o : Served} {s : State} (hc : served c = some o) (h : s.Poised) : (o.owner s).1.pose.Sound := by
  have hs := h.sound
  cases c with
  | identify l => cases hc; exact hs
  | readNotices l c e => cases hc; exact sound_readNotices _ _ _ _ hs
  | setNoticeMask l m => cases hc; exact sound_setNoticeMask _ _ hs
  | readStatus => cases hc; exact hs
  | readiness => cases hc; exact hs
  | motionForward => cases hc; exact sound_motionForward hs
  | motionFind => cases hc; exact sound_motionFind h
  | motionPosition => cases hc; exact sound_motionPosition hs
  | stop => cases hc; exact sound_stopMotion hs
  | setSchedule c => cases hc; exact sound_setSchedule _ hs
  | readSchedule => cases hc; exact hs
  | defineDesign i w n m => cases hc; exact sound_defineDesign _ _ _ _ hs
  | writeFigure i c j v => cases hc; exact sound_writeFigure _ _ _ _ hs
  | writeCards i c r => cases hc; exact sound_writeCards _ _ _ hs
  | readFigure i c j n => cases hc; exact Governed.readFigure (P := fun s => s.pose.Sound) _ _ _ _ hs
  | readCards i c n => cases hc; exact Governed.readCards (P := fun s => s.pose.Sound) _ _ _ hs
  | commitDesign i => cases hc; exact sound_commitDesign _ hs
  | reopenDesign i => cases hc; exact sound_reopenDesign _ hs
  | eraseDesign i => cases hc; exact sound_eraseDesign _ hs
  | readStore => cases hc; exact hs
  | defineWeave e w n l => cases hc; exact sound_defineWeave _ _ _ _ hs
  | readWeave e => cases hc; exact Governed.readWeave (P := fun s => s.pose.Sound) _ hs
  | setSection n r => cases hc; exact sound_setSection _ _ hs
  | setDeadList l => cases hc; exact sound_setDeadList _ hs
  | addDeadHook x => cases hc; exact sound_addDeadHook _ hs
  | removeDeadHook x => cases hc; exact sound_removeDeadHook _ hs
  | readHarness => cases hc; exact hs
  | setFeeder f c k => cases hc; exact sound_setFeeder _ _ _ hs
  | restoreFeeder f => cases hc; exact sound_restoreFeeder _ hs
  | setGroup g p q m => cases hc; exact sound_setGroup _ _ _ _ hs
  | readWeft l f t e y => cases hc; exact sound_readWeft _ _ _ _ _ hs
  | weftPlan => cases hc; exact hs
  | weftReport n o => cases hc; exact sound_weftReport _ _ hs
  | feederState f r => cases hc; exact sound_feederState _ _ hs
  | census => cases hc; exact sound_census hs
  | hookTest => cases hc; exact sound_hookTest hs
  | readModules c => cases hc; exact sound_readModules _ hs
  | statusRefresh c => cases hc; exact sound_beginRefresh _ hs
  | setEchoBudget t => cases hc; exact sound_setEchoBudget _ hs
  | selectDesign i c => cases hc; exact sound_selectDesign _ _ hs
  | readHistory d n => cases hc; exact Governed.readHistory (P := fun s => s.pose.Sound) _ _ hs
  | resetSequencer => cases hc; exact sound_resetWeaving hs
  | queueChange i c k f => cases hc; exact sound_queueChange _ _ _ _ hs
  | cancelChanges => cases hc; exact sound_emptyQueue hs
  | readChanges => cases hc; exact hs
  | setMark k m v w n p => cases hc; exact sound_setMark _ _ _ _ _ _ hs
  | setGuard g => cases hc; exact sound_setGuard _ hs
  | readGuard c => cases hc; exact hs
  | clearHalt => cases hc; exact sound_clearHalt hs
  | clearGuardCount => cases hc; exact hs
  | _ => cases hc

theorem attended_poised : Attended State.Poised where
  receiver := fun l f h hf => ⟨by rw [pose_modLink]; exact h.sound, commanded_programSound.receiver l f h.program hf,
    commanded_guardSound.receiver l f h.guard hf⟩
  owner := fun hc hg h => ⟨sound_owner hc h, commanded_programSound.owner hc hg h.program,
    commanded_guardSound.owner hc hg h.guard⟩

/-! ### Every command -/

section
variable {s : State} (h : s.pose.Sound)
include h

/-- The shaft, the guard and the window are no part of the pose. -/
theorem sound_ang (a : Ang) : { s with ang := a }.pose.Sound := h
theorem sound_moved (a : Ang) (n : Nat) : { s with ang := a, draws := n }.pose.Sound := h
theorem sound_grd (g : Grd) : { s with grd := g }.pose.Sound := h
theorem sound_edges (c : Option Nat) (e y : Nat) :
    { s with wft := { s.wft with capture := c, extra := e, stray := y } }.pose.Sound := h

end

theorem sound_endScan (i : Fin 8) {s : State} (h : s.pose.Sound) : (endScan i s).pose.Sound := by
  unfold endScan
  split
  · exact h
  · split <;> exact h

theorem not_taking_of_transfer {s : State} {x : Transfer} (h : s.hcc.transfer = x) (hx : ∀ n, x ≠ .taking n) :
    s.pose.taking = false := by
  show s.hcc.isTaking = false
  unfold Hcc.isTaking
  rw [h]
  cases x with
  | taking n => exact absurd rfl (hx n)
  | _ => rfl

theorem sound_exec (c : Instr) {s t : State} (h : s.Poised) (ht : exec c s = .next t) : t.pose.Sound := by
  have hs := h.sound
  have known : ∀ {u : State}, u.pose.Sound → Host.Outcome.next (φ := Fault) (ρ := Refusal) u = .next t → t.pose.Sound :=
    fun hu e => by injection e with e; subst e; exact hu
  have requested : exec c s = runRequest c s → t.pose.Sound := fun e => (attended_poised.runRequest c h (e ▸ ht)).sound
  cases c with
  | encoderStep d z => exact known (sound_takeActions _ (sound_moved hs _ _) (steady_guardSound.moved d z _ _ h.guard)) ht
  | encoderError z => exact known (sound_raiseAngleFault (sound_ang hs _)) ht
  | settleTimerExpiry =>
    simp only [exec, execSettleTimerExpiry] at ht
    split at ht
    · exact known hs ht
    · exact known (sound_exitCheck (sound_restHandling false (sound_ang hs _))) ht
  | stallTimerExpiry =>
    simp only [exec, execStallTimerExpiry] at ht
    split at ht
    · exact known hs ht
    · exact known (sound_trigger _ (sound_ang hs _)) ht
  | wstopChange v =>
    simp only [exec, execWstopChange] at ht
    split at ht
    · exact known hs ht
    · exact known (sound_grd hs _) ht
  | filterTimerExpiry =>
    simp only [exec, execFilterTimerExpiry] at ht
    split at ht
    · exact known hs ht
    · split at ht
      · exact known (sound_trigger _ (sound_grd hs _)) ht
      · exact known (sound_exitCheck (sound_grd hs _)) ht
      · exact known (sound_grd hs _) ht
      · exact known (sound_grd hs _) ht
  | arrivalEdge =>
    simp only [exec, execArrivalEdge] at ht
    split at ht <;> exact known (sound_edges hs _ _ _) ht
  | powerOnReset z w => exact known (u := poweredOn z w s) ((sound_pose State.reset).2 ⟨presentSound_reset, nofun, nofun⟩) ht
  | lineBreak l => exact known (by rw [pose_modLink]; exact hs) ht
  | frameError l cs => exact (attended_poised.receive l cs h ht).sound
  | unknownRequest l cs => exact (attended_poised.receive l cs h ht).sound
  | overlappingFrame l cs => exact (attended_poised.receive l cs h ht).sound
  | encodingFault l cs => exact (attended_poised.receive l cs h ht).sound
  | responseSent l => exact known (by rw [pose_modLink]; exact hs) ht
  | commitScanEnd =>
    simp only [exec, execCommitScanEnd] at ht
    split at ht
    · exact known hs ht
    · exact known (sound_endScan _ hs) ht
  | censusResult m =>
    simp only [exec, execCensusResult] at ht
    split at ht
    · exact known (sound_censusEnds _ hs) ht
    · exact known hs ht
  | hookTestEnd st =>
    simp only [exec, execHookTestEnd] at ht
    split at ht
    · exact known (u := hookTestEnds _ s) hs ht
    · exact known hs ht
  | refreshCompletion st =>
    simp only [exec, execRefreshCompletion] at ht
    split at ht
    next hr => exact known (sound_refreshEnds st hs (not_taking_of_transfer hr nofun)) ht
    · exact known hs ht
  | jobCompletion =>
    simp only [exec, execJobCompletion] at ht
    split at ht
    · exact known hs ht
    next hj =>
      obtain ⟨h1, h2⟩ := sound_completeJob hs hj
      exact known (sound_reportExpansion h1 h2) ht
  | transferCompletion echo =>
    simp only [exec, execTransferCompletion] at ht
    split at ht
    next hr => exact known (sound_transferEnds _ echo hs (not_taking_of_transfer hr nofun)) ht
    all_goals exact known hs ht
  | takeCompletion =>
    simp only [exec, execTakeCompletion] at ht
    split at ht
    next hr => exact known (sound_takeEnds hs (show s.hcc.isTaking = true by rw [Hcc.isTaking, hr]) h.guard h.fresh) ht
    all_goals exact known hs ht
  | _ => exact requested rfl

/-- Settles O40, by the pose: `presentSound` and `plansReady` are read from it, and each operation moves it soundly. -/
theorem stepKeepsPlansReady : Obligations.StepKeepsPlansReady := by
  intro s t hcur hhist hguard hpresent hplans ht
  have h : s.Poised := ⟨(sound_pose s).2 ⟨hpresent, hplans⟩, (consecutive_iff s).1 ⟨hcur, hhist⟩, hguard⟩
  refine (sound_pose t).1 ?_
  unfold step at ht
  split at ht
  · injection ht with e; subst e; exact h.sound
  next q _ =>
    exact sound_exec _ (s := { s with pending := q }) ⟨h.sound, h.program, h.guard⟩ ht

end Sys2Proof.Machine
end
